-- ==== Sys2Proof/Word.lean ====
section
/-! DEFINITION. The words of the block and the named values its fields hold.

Indices, responses, COUNT and CURSOR are 8-bit unsigned words (R6 `IDX_W`, R39, R44); a command is one 16-bit
word (R100); a transition-ROM address is three bits (R115). What the spec never adds, shifts or masks is a named
value, not a bit vector. -/

namespace Sys2Proof

/-- An 8-bit unsigned value: an index, a response, a fault code (R6, R42, R108). -/
abbrev Byte := BitVec 8

/-- A command word (R100). -/
abbrev CmdWord := BitVec 16

/-- A transition-ROM address `{state[1:0], cond}` (R115). -/
abbrev RomAddr := BitVec 3

/-- The four Key States (R33, R111). -/
inductive KeyState where
  | released | pressShake | pressed | releaseShake
deriving DecidableEq, Repr, Inhabited

/-- A pin level, which is also the table's condition (R112, R152). -/
inductive Level where
  | low | high
deriving DecidableEq, Repr, Inhabited

/-- The action tag of a ROM entry (R113); the reserved code `0b11` has no constructor (R119). -/
inductive Action where
  | none | markPressed | clearPressed
deriving DecidableEq, Repr, Inhabited

/-- The kind of a callback event (R114). -/
inductive EventKind where
  | press | release
deriving DecidableEq, Repr, Inhabited

/-- The five causes of a recorded fault (R233). -/
inductive FaultCause where
  | illegalCommand | registerAfterArm | reentrantCommand | scanFromForeground | spuriousCbdone
deriving DecidableEq, Repr, Inhabited

/-- An opaque pin reference (R72): `PINREF_W` bits as a number; nothing interprets it. -/
structure PinRef where
  bits : Nat
deriving DecidableEq, Repr, Inhabited

/-- An opaque callback handle (R73): `CBREF_W` bits as a number; nothing interprets it. -/
structure CbRef where
  bits : Nat
deriving DecidableEq, Repr, Inhabited

end Sys2Proof
end

