-- ==== Sys2Proof/Config.lean ====
section
/-! DEFINITION. The implementation parameters of R6, the turns a schedule can offer, and the free values: the pin
oracle's answers, the interleaving of the agents, and the code of a fault that the spec gives none. -/

namespace Sys2Proof

/-- `HOST_DURING_SCAN` (R6, R82, R247). -/
inductive HostDuringScan where
  | stalled | interleaved
deriving DecidableEq, Repr, Inhabited

/-- The parameters of an instance (R6). `cap` is 8 bits wide, so `CAP > 255` cannot be written (V11); `1 <= CAP` is
`Params.wellFormed`. `pinrefW` and `cbrefW` are the OPEN widths `PINREF_W` and `CBREF_W`. -/
structure Params where
  cap            : Byte
  hostDuringScan : HostDuringScan
  pinrefW        : Nat
  cbrefW         : Nat
deriving DecidableEq, Repr, Inhabited

/-- The reference system: `CAP = 16`, `STALLED` (R6). The two widths are OPEN; 8 is a DESIGN CHOICE (log 5). -/
def Params.reference : Params :=
  { cap := 16#8, hostDuringScan := .stalled, pinrefW := 8, cbrefW := 8 }

/-- Whose turn it is: one of the four agents of R8, or the reset input of R271. -/
inductive Turn where
  | host | tick | engine | cb | reset
deriving DecidableEq, Repr, Inhabited

/-- FREE VALUE (log 3): the level the PIN oracle answers when it is asked for pin `p` at its `n`-th call, where the state
lists no answer (R75). -/
opaque Config.freeLevel : PinRef → Nat → Level

/-- FREE VALUE (log 20): the cause whose code a read of a field without a value records at the `n`-th step (R12, V5). -/
opaque Config.freeCause : Nat → FaultCause

/-- FREE VALUE (log 1): the turn offered at the `n`-th step, where the state lists no schedule (R81, R241). -/
opaque Config.freeTurn : Nat → Turn

end Sys2Proof
end

