-- ==== Sys2Proof/Syntax.lean ====
section
/-! DEFINITION. The instructions: the five commands of R101 and the eight transition-ROM entries of R116, one
constructor per row of the opcode table, in its order; and a command as it stands on the block's ports (R100, R102). -/

namespace Sys2Proof

/-- One constructor per row of the opcode table. REGISTER takes its operands from the three operand ports (R102,
R107), which are state of the interface; ISPRESSED carries the only immediate (R104). -/
inductive Instr where
  | register
  | scantick
  | ispressed (idx : Byte)
  | arm
  | cbdone
  | tReleasedLow
  | tReleasedHigh
  | tPressShakeLow
  | tPressShakeHigh
  | tPressedLow
  | tPressedHigh
  | tReleaseShakeLow
  | tReleaseShakeHigh
deriving DecidableEq, Repr, Inhabited

/-- A command word with the values on the operand ports `ARG_PIN`, `ARG_PRESS` and `ARG_RELEASE`, which the block
samples in the same step (R102). The port values are raw: `Operands.lean` reads their fields. -/
structure Command where
  word       : CmdWord
  argPin     : Nat
  argPress   : Nat
  argRelease : Nat
deriving DecidableEq, Repr, Inhabited

/-- What an instruction is encoded in: a 16-bit command word (R100), or a ROM address (R115). -/
inductive Code where
  | cmd (w : CmdWord)
  | rom (a : RomAddr)
deriving DecidableEq, Repr, Inhabited

end Sys2Proof
end

