-- ==== Sys2Proof/Machine/State.lean ====
section
/-! DEFINITION. The state of the block (R30, R31, R39 to R46) with its interface (the command port, the response, the
agents' pending words, the pin oracle's pending answers, the schedule) and its parameters; why a step can stop; reset
(R49, R270). Plain data throughout. -/

namespace Sys2Proof.Machine

/-- `PHASE` (R41). The reserved code 3 is never held and has no constructor (R119, V3; log 15). -/
inductive Phase where
  | idle | run | waitCb
deriving DecidableEq, Repr, Inhabited

/-- Who issued the command on the port (R181). ENGINE issues no command. -/
inductive Issuer where
  | host | cb | tick
deriving DecidableEq, Repr, Inhabited

/-- One key record (R31). -/
structure KeyRecord where
  pin        : PinRef
  lastSample : Level
  state      : KeyState
  isPressed  : Bool
  onPress    : Option CbRef
  onRelease  : Option CbRef
deriving DecidableEq, Repr, Inhabited

/-- What a slot holds once a rule has written it (R38; log 8): the whole record, which REGISTER writes; or STATE alone,
which is all that CBDONE writes (R198), where REGISTER has not: the other five fields then still hold "no value". The
engine step writes only a record that it has read (R159). -/
inductive Slot where
  | record (r : KeyRecord)
  | stateOnly (st : KeyState)
deriving DecidableEq, Repr, Inhabited

/-- The key-record register file: the written slots by index, indices strictly rising (`Registry.wf`). An index that
is not listed holds the spec's own "no value" in every field (R12, R32, R49; log 8). -/
abbrev Registry := List (Nat × Slot)

/-- A callback event (R114). -/
structure Event where
  kind   : EventKind
  key    : Byte
  handle : CbRef
deriving DecidableEq, Repr, Inhabited

/-- The command port and the operand ports, with the issuing agent, in the step that samples them (R100, R102, R181;
log 10). -/
structure Port where
  agent : Issuer
  cmd   : Command
deriving DecidableEq, Repr, Inhabited

/-- The world at the block's ports, as plain data that the step reads (logs 1, 3, 4, 18). -/
structure Env where
  sched     : List Turn        -- the turns offered next, oldest first (R81)
  turnCount : Nat              -- turns offered so far: the argument of the free values `Config.freeTurn`, `freeCause`
  hostProg  : List Command     -- HOST's words still to be issued (R247)
  cbProg    : List CmdWord     -- the words CB will issue, invocation after invocation (R205)
  draws     : List Level       -- the pin oracle's next answers, in call order (R75, R120)
  drawCount : Nat              -- pin reads so far: an argument of the free value `Config.freeLevel`
  pinAsked  : Option PinRef    -- the pin reference last passed to `ReadLevel` (R36, R72)
deriving DecidableEq, Repr, Inhabited

/-- The machine's state. `keys` to `faultCode` are the state of R30; the constant transition ROM is `rom` in
Machine/Engine.lean (R43). `port`, `response`, `params` and `env` are the interface and the parameters. -/
structure State where
  keys        : Registry       -- KEY[0..CAP-1] (R31)
  count       : Byte           -- COUNT (R39)
  armed       : Bool           -- ARMED (R40)
  phase       : Phase          -- PHASE (R41)
  cursor      : Byte           -- CURSOR (R44)
  pendingNext : KeyState       -- PENDING_NEXT (R45)
  pendingEvt  : Option Event   -- PENDING_EVT (R46)
  faulted     : Bool           -- FAULTED (R42)
  faultCode   : Byte           -- FAULT_CODE (R42)
  port        : Port           -- the command last issued (R100, R102; log 10)
  response    : Option Byte    -- what that command responded, if anything (R10, R108 to R110; log 10)
  params      : Params         -- CAP and the other parameters, fixed for the instance (R6, R7; log 5)
  env         : Env            -- the agents' words, the schedule, the oracle's answers
deriving DecidableEq, Repr, Inhabited

/-- Why `exec` stops. It is none of the spec's recorded faults (R233), nor a read of a field without a value (R12, log 8):
those are NEXT states, with FAULTED and FAULT_CODE written (log 7). -/
inductive Fault where
  /-- A command from an agent that never issues it there: TICK with another command than SCANTICK (R181), SCANTICK
  outside R246's enabling, CBDONE by CB outside a callback wait (R205, R238), a ROM row outside R203's enabling.
  Raised by `exec` alone; `step` never issues such a command. Safe. -/
  | neverIssued
deriving DecidableEq, Repr

/-- Why an instruction has no meaning. -/
inductive Refusal where
  /-- The instruction of that mnemonic is not modelled yet. Raised by no arm of this model. Safe. -/
  | notModelled (mnemonic : String)
deriving DecidableEq, Repr

/-- The command port with nothing issued yet: a value of the model's own (log 17). -/
def Port.reset : Port :=
  { agent := .host, cmd := { word := 0#16, argPin := 0, argPress := 0, argRelease := 0 } }

/-- A world that has listed nothing: a value of the model's own (log 17). -/
def Env.reset : Env :=
  { sched := [], turnCount := 0, hostProg := [], cbProg := [], draws := [], drawCount := 0,
    pinAsked := none }

/-- The state right after reset (R49, R270), of an instance with the reference parameters of R6. -/
def State.reset : State :=
  { keys := [], count := 0#8, armed := false, phase := .idle, cursor := 0#8, pendingNext := .released,
    pendingEvt := none, faulted := false, faultCode := 0#8, port := Port.reset, response := none,
    params := Params.reference, env := Env.reset }

end Sys2Proof.Machine
end

