-- ==== Sys2Proof/Machine/Flags.lean ====
section
/-! DEFINITION. The block's flags: `IS_PRESSED` of a record, written by the two actions (R34, R50, R153, R155) and
read as a response byte (R109), and the relation it keeps to the Key State (R161). -/

namespace Sys2Proof

/-- `STATE ∈ {PRESSED, RELEASE_SHAKE}`, what the flag equals outside a callback wait (R161). -/
def KeyState.isDown (st : KeyState) : Bool :=
  match st with
  | .released | .pressShake => false
  | .pressed | .releaseShake => true

end Sys2Proof

namespace Sys2Proof.Machine

/-- The flag write of mark-pressed (R153). -/
def KeyRecord.setPressed (r : KeyRecord) : KeyRecord := { r with isPressed := true }

/-- The flag write of clear-pressed (R155). -/
def KeyRecord.clearPressed (r : KeyRecord) : KeyRecord := { r with isPressed := false }

/-- The response byte of a flag: `0x01` for true, `0x00` for false, bits [7:1] always 0 (R109). -/
def flagByte (b : Bool) : Byte := if b then 0x01#8 else 0x00#8

end Sys2Proof.Machine
end

