-- ==== Sys2Proof/WellFormed.lean ====
section
/-! DEFINITION. Well-formedness: which instructions, parameters and port values the spec admits. -/

namespace Sys2Proof

/-- Every term of `Instr` is well-formed: the only operand is the 8-bit `IDX`, and every value of it is legal (R104). -/
def Instr.wellFormed (i : Instr) : Bool :=
  match i with
  | .ispressed idx => decide (idx.toNat < 256)
  | .register | .scantick | .arm | .cbdone => true
  | .tReleasedLow | .tReleasedHigh | .tPressShakeLow | .tPressShakeHigh => true
  | .tPressedLow | .tPressedHigh | .tReleaseShakeLow | .tReleaseShakeHigh => true

/-- `1 <= CAP` (R6); `CAP <= 255` holds by the width of `cap`. -/
def Params.wellFormed (p : Params) : Bool :=
  decide (1 ≤ p.cap.toNat)

/-- The values on the operand ports fit the ports: `PINREF_W` bits, and `1 + CBREF_W` bits twice (R102). -/
def Command.wellFormed (p : Params) (c : Command) : Bool :=
  decide (c.argPin < 2 ^ p.pinrefW) && decide (c.argPress < 2 ^ (p.cbrefW + 1)) &&
    decide (c.argRelease < 2 ^ (p.cbrefW + 1))

end Sys2Proof
end

