-- ==== Sys2Proof/Decode.lean ====
section
/-! DEFINITION. The codes of the named values (R111 to R114, R233), the decoder of command words (R118) and of ROM
addresses (R115), total and rejecting by name, and after them the encoder. -/

namespace Sys2Proof

/-- Why a command word is Illegal (R117). -/
inductive IllegalWord where
  | reservedBits      -- `RSV ≠ 0`
  | reservedOpcode    -- `OP` 0x0 or 0x6 to 0xF
  | indexNotZero      -- `IDX ≠ 0` on a command other than ISPRESSED
deriving DecidableEq, Repr, Inhabited

/-- What decoding answers (R118: `Cmd | Illegal`). -/
inductive Decoded where
  | legal (i : Instr)
  | illegal (why : IllegalWord)
deriving DecidableEq, Repr, Inhabited

/-- `OP`, bits [15:12] of a command word (R100). -/
def opField (w : CmdWord) : BitVec 4 := w.extractLsb' 12 4

/-- `RSV`, bits [11:8] of a command word (R100). -/
def rsvField (w : CmdWord) : BitVec 4 := w.extractLsb' 8 4

/-- `IDX`, bits [7:0] of a command word (R100); it is already 8 bits wide, so `zext_8` is the identity (R107). -/
def idxField (w : CmdWord) : Byte := w.extractLsb' 0 8

/-- A command without an operand: `IDX` must be 0 (R100, R118). -/
def bareCommand (i : Instr) (w : CmdWord) : Decoded :=
  if idxField w = 0#8 then .legal i else .illegal .indexNotZero

/-- `decode` of R118. -/
def decodeCmd (w : CmdWord) : Decoded :=
  if rsvField w ≠ 0#4 then .illegal .reservedBits
  else
    match (opField w).toNat with
    | 1 => bareCommand .register w
    | 2 => bareCommand .scantick w
    | 3 => .legal (.ispressed (idxField w))
    | 4 => bareCommand .arm w
    | 5 => bareCommand .cbdone w
    | _ => .illegal .reservedOpcode

/-- Key State codes (R111). -/
def KeyState.code (st : KeyState) : BitVec 2 :=
  match st with
  | .released => 0b00#2
  | .pressShake => 0b01#2
  | .pressed => 0b10#2
  | .releaseShake => 0b11#2

/-- The Key State of a code; every code is a state (R33, R111). -/
def KeyState.ofCode (c : BitVec 2) : KeyState :=
  match c.toNat with
  | 0 => .released
  | 1 => .pressShake
  | 2 => .pressed
  | _ => .releaseShake

/-- Level codes, `LOW = 0` and `HIGH = 1` (R112). -/
def Level.code (lv : Level) : BitVec 1 :=
  match lv with
  | .low => 0#1
  | .high => 1#1

/-- The level of a code (R112). -/
def Level.ofCode (c : BitVec 1) : Level :=
  if c = 0#1 then .low else .high

/-- Action-tag codes (R113). -/
def Action.code (a : Action) : BitVec 2 :=
  match a with
  | .none => 0b00#2
  | .markPressed => 0b01#2
  | .clearPressed => 0b10#2

/-- Event-kind codes, `PRESS = 0` and `RELEASE = 1` (R114). -/
def EventKind.code (k : EventKind) : BitVec 1 :=
  match k with
  | .press => 0#1
  | .release => 1#1

/-- Fault codes (R233). -/
def FaultCause.code (c : FaultCause) : Byte :=
  match c with
  | .illegalCommand => 1#8
  | .registerAfterArm => 2#8
  | .reentrantCommand => 3#8
  | .scanFromForeground => 4#8
  | .spuriousCbdone => 5#8

/-- The ROM address `{state[1:0], cond}` (R115). -/
def romAddr (st : KeyState) (lv : Level) : RomAddr := st.code ++ lv.code

/-- The state half of a ROM address (R115). -/
def romAddrState (a : RomAddr) : KeyState := .ofCode (a.extractLsb' 1 2)

/-- The condition half of a ROM address (R115). -/
def romAddrCond (a : RomAddr) : Level := .ofCode (a.extractLsb' 0 1)

/-- The row of the opcode table at a ROM address (R116); the eight addresses are all rows. -/
def decodeEntry (a : RomAddr) : Instr :=
  match romAddrState a, romAddrCond a with
  | .released, .low => .tReleasedLow
  | .released, .high => .tReleasedHigh
  | .pressShake, .low => .tPressShakeLow
  | .pressShake, .high => .tPressShakeHigh
  | .pressed, .low => .tPressedLow
  | .pressed, .high => .tPressedHigh
  | .releaseShake, .low => .tReleaseShakeLow
  | .releaseShake, .high => .tReleaseShakeHigh

/-- Decoding of either kind of code. -/
def decode (c : Code) : Decoded :=
  match c with
  | .cmd w => decodeCmd w
  | .rom a => .legal (decodeEntry a)

/-- The instruction of a decoding, if it is legal. -/
def Decoded.instr? (d : Decoded) : Option Instr :=
  match d with
  | .legal i => some i
  | .illegal _ => none

/-- The host's entry to the decoder. A row of the table is a 16-bit command, or a 3-bit ROM address in one byte whose
upper five bits are 0; the bits are numbered as the table numbers them, so no byte order enters (R77, log 14). -/
def decodeTableWord (nbits w : Nat) : Option Instr :=
  if nbits ≤ 8 then
    if w < 8 then some (decodeEntry (BitVec.ofNat 3 w)) else none
  else if nbits ≤ 16 then
    if w < 65536 then (decodeCmd (BitVec.ofNat 16 w)).instr? else none
  else none

/-- The encoder, from the `match` column of the table: R102 to R106 for commands, R116 for ROM entries. -/
def encode (i : Instr) : Code :=
  match i with
  | .register => .cmd 0x1000#16
  | .scantick => .cmd 0x2000#16
  | .ispressed idx => .cmd (0x30#8 ++ idx)
  | .arm => .cmd 0x4000#16
  | .cbdone => .cmd 0x5000#16
  | .tReleasedLow => .rom 0b000#3
  | .tReleasedHigh => .rom 0b001#3
  | .tPressShakeLow => .rom 0b010#3
  | .tPressShakeHigh => .rom 0b011#3
  | .tPressedLow => .rom 0b100#3
  | .tPressedHigh => .rom 0b101#3
  | .tReleaseShakeLow => .rom 0b110#3
  | .tReleaseShakeHigh => .rom 0b111#3

end Sys2Proof
end

