-- ==== Sys2Proof/Machine/Operands.lean ====
section
/-! DEFINITION. Operand forms (R102, R104, R107): the three operand ports of REGISTER, and the record REGISTER makes
of them. The index operand of ISPRESSED is a field of the instruction, taken by `idxField` of the decoder. -/

namespace Sys2Proof.Machine

/-- `ARG_PIN`: the port's `PINREF_W` bits are the pin reference (R102). -/
def pinOperand (w : Nat) (raw : Nat) : PinRef := ⟨raw % 2 ^ w⟩

/-- `ARG_PRESS` and `ARG_RELEASE`: bit `CBREF_W` is the present bit, the bits below it the handle; with the present bit
0 the operand is `none` and the handle bits are ignored (R102, V7). -/
def cbOperand (w : Nat) (raw : Nat) : Option CbRef :=
  if raw / 2 ^ w % 2 = 1 then some ⟨raw % 2 ^ w⟩ else none

/-- The pin operand on the ports. -/
def State.argPin (s : State) : PinRef := pinOperand s.params.pinrefW s.port.cmd.argPin

/-- The press-callback operand on the ports. -/
def State.argPress (s : State) : Option CbRef := cbOperand s.params.cbrefW s.port.cmd.argPress

/-- The release-callback operand on the ports. -/
def State.argRelease (s : State) : Option CbRef := cbOperand s.params.cbrefW s.port.cmd.argRelease

/-- The record a successful REGISTER writes (R182, R49): RELEASED, not pressed, LAST_SAMPLE 0, the operands. -/
def State.newRecord (s : State) : KeyRecord :=
  { pin := s.argPin, lastSample := .low, state := .released, isPressed := false,
    onPress := s.argPress, onRelease := s.argRelease }

end Sys2Proof.Machine
end

