-- ==== Sys2Proof/Machine/Ops.lean ====
section
/-! DEFINITION. The named operations over the register file and the registers: slot access, responses, recording a
fault (R232), the callback call (R157) and its return, the scan-cursor advance (R206), the agents' enabling conditions
(R203, R205, R246, R247), and the observation word STATUS (R47). -/

namespace Sys2Proof.Machine

/-! ### The register file -/

/-- What has been written in slot `i`; `none` is the spec's "no value" in every field (R12, R32). -/
def Registry.find (r : Registry) (i : Nat) : Option Slot :=
  match r with
  | [] => none
  | (j, v) :: rest => if i = j then some v else Registry.find rest i

/-- The record of a slot that holds one. -/
def Slot.record? (v : Slot) : Option KeyRecord :=
  match v with
  | .record r => some r
  | .stateOnly _ => none

/-- The record in slot `i`; `none` where PIN, IS_PRESSED and the other fields of REGISTER hold no value (R12). -/
def Registry.read (r : Registry) (i : Nat) : Option KeyRecord := (Registry.find r i).bind Slot.record?

/-- Write slot `i` (R74), keeping the indices rising. -/
def Registry.write (r : Registry) (i : Nat) (v : Slot) : Registry :=
  match r with
  | [] => [(i, v)]
  | (j, k) :: rest =>
    if i < j then (i, v) :: (j, k) :: rest
    else if i = j then (i, v) :: rest
    else (j, k) :: Registry.write rest i v

/-- The canonical form: indices strictly rising. -/
def Registry.wf (r : Registry) : Bool :=
  match r with
  | [] => true
  | (j, _) :: rest => rest.all (fun p => decide (j < p.1)) && Registry.wf rest

/-- `KEY[i]` for an 8-bit index (R31, R71). -/
def State.slot (s : State) (i : Byte) : Option KeyRecord := Registry.read s.keys i.toNat

/-- `KEY[i] <- r`, the whole record. -/
def State.writeSlot (s : State) (i : Byte) (r : KeyRecord) : State :=
  { s with keys := Registry.write s.keys i.toNat (.record r) }

/-- A slot with STATE written: its other fields keep what they held, a value or none (R38). -/
def Slot.withState (v : Option Slot) (st : KeyState) : Slot :=
  match v with
  | some (.record r) => .record { r with state := st }
  | some (.stateOnly _) | none => .stateOnly st

/-- `KEY[i].STATE <- st`. -/
def State.writeState (s : State) (i : Byte) (st : KeyState) : State :=
  { s with keys := Registry.write s.keys i.toNat (Slot.withState (Registry.find s.keys i.toNat) st) }

/-! ### Responses -/

/-- `respond v` (R10). -/
def State.respond (s : State) (v : Byte) : State := { s with response := some v }

/-- The step gives no response (R110). -/
def State.noResponse (s : State) : State := { s with response := none }

/-- The "no capacity" sentinel `REG_FULL` (R108). -/
def regFull : Byte := 0xFF#8

/-! ### Faults (R232, R233) -/

/-- `raise Fault(code)` (R232): the first fault since reset is recorded, nothing else changes, no response. -/
def State.raiseFault (s : State) (c : FaultCause) : State :=
  if s.faulted then { s with response := none }
  else { s with faulted := true, faultCode := c.code, response := none }

/-- A read of a field that holds no value (R12: a model that reaches it must fault). By 93_implementation_defined.md the
item V5 is treated as `fault`: a fault is recorded and the run fails. No code of R233 is named for it, so which of the
five is recorded is a FREE VALUE (V4 rules out any other; log 20). The reading step has no other effect (R232). -/
def State.readNoValue (s : State) : State := s.raiseFault (Config.freeCause s.env.turnCount)

/-! ### The callback call, its return, and the cursor -/

/-- `emit Event(kind, i, h)` (R157) with `i = CURSOR`: the event is presented and the engine waits. -/
def State.emitEvent (s : State) (kind : EventKind) (h : CbRef) : State :=
  { s with pendingEvt := some { kind := kind, key := s.cursor, handle := h }, phase := .waitCb }

/-- `advance(CURSOR)` (R206); the sum is computed without wrapping (R200). -/
def State.advance (s : State) : State :=
  if s.cursor.toNat + 1 < s.count.toNat then { s with cursor := s.cursor + 1#8, phase := .run }
  else { s with phase := .idle }

/-- The state write that ends an evaluation, and the advance (R159, R198). -/
def State.commit (s : State) (r : KeyRecord) (nxt : KeyState) : State :=
  (s.writeSlot s.cursor { r with state := nxt }).advance

/-- The return from a callback (R198): commit PENDING_NEXT, withdraw the event, advance. It reads no field of the
record. -/
def State.returnFromCallback (s : State) : State :=
  State.advance { s.writeState s.cursor s.pendingNext with pendingEvt := none, response := none }

/-! ### Enabling conditions -/

/-- The block is busy when `PHASE ≠ IDLE` (R41). -/
def State.busy (s : State) : Bool := !decide (s.phase = .idle)

/-- R247. -/
def State.hostEnabled (s : State) : Bool :=
  !s.faulted && (!s.busy || decide (s.params.hostDuringScan = .interleaved))

/-- R246. -/
def State.tickEnabled (s : State) : Bool := s.armed && !s.busy && !s.faulted

/-- R203, R159. -/
def State.engineEnabled (s : State) : Bool := decide (s.phase = .run) && !s.faulted

/-- R205, R239. -/
def State.cbEnabled (s : State) : Bool := decide (s.phase = .waitCb) && !s.faulted

/-! ### Contexts -/

/-- The three execution contexts (R248). -/
inductive Context where
  | foreground | scan | callback
deriving DecidableEq, Repr, Inhabited

/-- The context the block is in (R248): a scan is entered by SCANTICK and left when PHASE is IDLE again; a callback is
entered by an event and left by CBDONE. DESIGN CHOICE (log 19): R248 never leaves the foreground, and suspends it during
a scan under STALLED only, so under INTERLEAVED two contexts are live in a scan; this names the scan or the callback
one, from PHASE alone, whatever HOST_DURING_SCAN is. -/
def State.context (s : State) : Context :=
  match s.phase with
  | .idle => .foreground
  | .run => .scan
  | .waitCb => .callback

/-! ### Observation -/

/-- PHASE codes (R41). -/
def Phase.code (p : Phase) : BitVec 2 :=
  match p with
  | .idle => 0#2
  | .run => 1#2
  | .waitCb => 2#2

/-- The kind bit of STATUS: 0 when no event is pending (R47). -/
def State.evtKindBit (s : State) : BitVec 1 :=
  match s.pendingEvt with
  | none => 0#1
  | some e => e.kind.code

/-- The observation word STATUS (R47): FAULT_CODE, CURSOR, kind, present, PENDING_NEXT, FAULTED, PHASE, ARMED, COUNT. -/
def State.status (s : State) : BitVec 32 :=
  s.faultCode ++ s.cursor ++ s.evtKindBit ++ BitVec.ofBool s.pendingEvt.isSome ++ s.pendingNext.code ++
    BitVec.ofBool s.faulted ++ s.phase.code ++ BitVec.ofBool s.armed ++ s.count

end Sys2Proof.Machine
end

