-- ==== Sys2Proof/Machine/Engine.lean ====
section
/-! DEFINITION. The debounce engine: the source's transition table with its first-match lookup `T` (R141), the
transition ROM (R115, R116), the engine step on one ROM entry (R159), and the meanings of the eight entries. -/

namespace Sys2Proof.Machine

/-- A ROM entry `{hit, next, action}` (R115). -/
structure RomEntry where
  hit    : Bool
  next   : KeyState
  action : Action
deriving DecidableEq, Repr, Inhabited

/-- The entry's bits `{hit, next, action}` (R116). -/
def RomEntry.bits (e : RomEntry) : BitVec 5 := BitVec.ofBool e.hit ++ e.next.code ++ e.action.code

/-- The constant transition ROM (R43, R116), by address. -/
def rom : List RomEntry :=
  [ { hit := true,  next := .pressShake,   action := .none },
    { hit := false, next := .released,     action := .none },
    { hit := true,  next := .pressed,      action := .markPressed },
    { hit := true,  next := .released,     action := .none },
    { hit := false, next := .pressed,      action := .none },
    { hit := true,  next := .releaseShake, action := .none },
    { hit := true,  next := .pressed,      action := .none },
    { hit := true,  next := .released,     action := .clearPressed } ]

/-- The ROM entry at an address; the eight addresses are all listed. -/
def romRead (a : RomAddr) : RomEntry := rom.getD a.toNat { hit := false, next := .released, action := .none }

/-- A row of the source's transition table (R116: its six rows, in order). -/
structure TableRow where
  current   : KeyState
  condition : Level
  next      : KeyState
  action    : Action
deriving DecidableEq, Repr, Inhabited

/-- The source's transition table, in its order (R116). -/
def table : List TableRow :=
  [ { current := .released,     condition := .low,  next := .pressShake,   action := .none },
    { current := .pressShake,   condition := .low,  next := .pressed,      action := .markPressed },
    { current := .pressShake,   condition := .high, next := .released,     action := .none },
    { current := .pressed,      condition := .high, next := .releaseShake, action := .none },
    { current := .releaseShake, condition := .high, next := .released,     action := .clearPressed },
    { current := .releaseShake, condition := .low,  next := .pressed,      action := .none } ]

/-- First-match lookup in a list of rows (R141). -/
def firstMatch (rows : List TableRow) (st : KeyState) (lv : Level) : Option (KeyState × Action) :=
  match rows with
  | [] => none
  | row :: rest =>
    if row.current = st ∧ row.condition = lv then some (row.next, row.action) else firstMatch rest st lv

/-- `T(state, cond)` (R140, R141). -/
def lookup (st : KeyState) (lv : Level) : Option (KeyState × Action) := firstMatch table st lv

/-- What a record becomes when the engine has evaluated it at a level and any callback has returned (R158, R159). -/
def KeyRecord.evaluated (r : KeyRecord) (lv : Level) : KeyRecord :=
  match lookup r.state lv with
  | none => { r with lastSample := lv }
  | some (nxt, .none) => { r with lastSample := lv, state := nxt }
  | some (nxt, .markPressed) => { r with lastSample := lv, state := nxt, isPressed := true }
  | some (nxt, .clearPressed) => { r with lastSample := lv, state := nxt, isPressed := false }

/-- After an action's flag write: the callback if the record names one (R154, R156, R157), else the state write and
the advance. The flag is already in `r`. -/
def State.notify (s : State) (kind : EventKind) (handle : Option CbRef) (r : KeyRecord) (nxt : KeyState) : State :=
  match handle with
  | some h => State.emitEvent { s.writeSlot s.cursor r with pendingNext := nxt } kind h
  | none => s.commit r nxt

/-- The effect of one ROM entry on key `CURSOR`, whose record with the sample stored is `r` (R158, R159). -/
def State.applyEntry (s : State) (e : RomEntry) (r : KeyRecord) : State :=
  if e.hit then
    match e.action with
    | .none => s.commit r e.next
    | .markPressed => s.notify .press r.onPress r.setPressed e.next
    | .clearPressed => s.notify .release r.onRelease r.clearPressed e.next
  else (s.writeSlot s.cursor r).advance

/-- EVAL_KEY (R159) with the sample `lv` drawn and the ROM addressed at `a`. Enabled as R203 says. Where the key's PIN
and the other fields that REGISTER writes hold no value, reading PIN faults (R12). -/
def evalEntry (a : RomAddr) (lv : Level) (s : State) : Host.Outcome State Fault Refusal :=
  if s.engineEnabled then
    match s.slot s.cursor with
    | some r => .next (s.applyEntry (romRead a) { r with lastSample := lv })
    | none => .next s.readNoValue
  else .fault .neverIssued

/-- (RELEASED, LOW), R143. -/
def execTReleasedLow (s : State) : Host.Outcome State Fault Refusal := evalEntry 0b000#3 .low s
/-- (RELEASED, HIGH), R144. -/
def execTReleasedHigh (s : State) : Host.Outcome State Fault Refusal := evalEntry 0b001#3 .high s
/-- (PRESS_SHAKE, LOW), R145. -/
def execTPressShakeLow (s : State) : Host.Outcome State Fault Refusal := evalEntry 0b010#3 .low s
/-- (PRESS_SHAKE, HIGH), R146. -/
def execTPressShakeHigh (s : State) : Host.Outcome State Fault Refusal := evalEntry 0b011#3 .high s
/-- (PRESSED, LOW), R147. -/
def execTPressedLow (s : State) : Host.Outcome State Fault Refusal := evalEntry 0b100#3 .low s
/-- (PRESSED, HIGH), R148. -/
def execTPressedHigh (s : State) : Host.Outcome State Fault Refusal := evalEntry 0b101#3 .high s
/-- (RELEASE_SHAKE, LOW), R149. -/
def execTReleaseShakeLow (s : State) : Host.Outcome State Fault Refusal := evalEntry 0b110#3 .low s
/-- (RELEASE_SHAKE, HIGH), R150. -/
def execTReleaseShakeHigh (s : State) : Host.Outcome State Fault Refusal := evalEntry 0b111#3 .high s

end Sys2Proof.Machine
end

