-- ==== Sys2Proof/Machine/KeyRegistry.lean ====
section
/-! DEFINITION. The registry's commands for the foreground and the callback: REGISTER, ISPRESSED and ARM. Each
checks the issuing agent first (R181, R240). -/

namespace Sys2Proof.Machine

/-- REGISTER once the agent and the arming are checked (R182, R183): the capacity check, then the append. -/
def State.register (s : State) : State :=
  if s.count = s.params.cap then s.respond regFull
  else State.respond { s.writeSlot s.count s.newRecord with count := s.count + 1#8 } s.count

/-- REGISTER (R182, R183, R187). -/
def execRegister (s : State) : Host.Outcome State Fault Refusal :=
  match s.port.agent with
  | .host => if s.armed then .next (s.raiseFault .registerAfterArm) else .next s.register
  | .cb => .next (s.raiseFault .reentrantCommand)
  | .tick => .fault .neverIssued

/-- ISPRESSED once the agent is checked (R188, R189). Reading a flag that holds no value faults (R12). -/
def State.query (s : State) (idx : Byte) : State :=
  if idx.toNat < s.count.toNat then
    match s.slot idx with
    | some r => s.respond (flagByte r.isPressed)
    | none => s.readNoValue
  else s.respond (flagByte false)

/-- ISPRESSED (R188, R189, R191). -/
def execIspressed (idx : Byte) (s : State) : Host.Outcome State Fault Refusal :=
  match s.port.agent with
  | .host | .cb => .next (s.query idx)
  | .tick => .fault .neverIssued

/-- ARM (R192). -/
def execArm (s : State) : Host.Outcome State Fault Refusal :=
  match s.port.agent with
  | .host => .next { s with armed := true, response := none }
  | .cb => .next (s.raiseFault .reentrantCommand)
  | .tick => .fault .neverIssued

end Sys2Proof.Machine
end

