-- ==== Sys2Proof/Machine/Scan.lean ====
section
/-! DEFINITION. The two commands that move the scan sequencer: SCANTICK, which starts a scan (R193), and CBDONE, the
return from a callback (R198). -/

namespace Sys2Proof.Machine

/-- SCANTICK taken by the block (R193, R194): nothing for an empty registry, else the scan starts at key 0. -/
def State.startScan (s : State) : State :=
  if s.count = 0#8 then s.noResponse
  else State.noResponse { s with cursor := 0#8, phase := .run }

/-- SCANTICK (R193 to R195, R236, R237). -/
def execScantick (s : State) : Host.Outcome State Fault Refusal :=
  match s.port.agent with
  | .tick => if s.tickEnabled then .next s.startScan else .fault .neverIssued
  | .host => .next (s.raiseFault .scanFromForeground)
  | .cb => .next (s.raiseFault .reentrantCommand)

/-- CBDONE (R198, R199, R238). -/
def execCbdone (s : State) : Host.Outcome State Fault Refusal :=
  match s.port.agent with
  | .cb =>
    if s.cbEnabled then .next s.returnFromCallback else .fault .neverIssued
  | .host => .next (s.raiseFault .spuriousCbdone)
  | .tick => .fault .neverIssued

end Sys2Proof.Machine
end

