-- ==== Sys2Proof/Machine/Dispatch.lean ====
section
/-! DEFINITION. One arm per constructor of Instr: the meaning of each row of the opcode table. -/

namespace Sys2Proof.Machine

def exec (i : Instr) (s : State) : Host.Outcome State Fault Refusal :=
  match i with
  | .register => Sys2Proof.Machine.execRegister s
  | .scantick => Sys2Proof.Machine.execScantick s
  | .ispressed idx => Sys2Proof.Machine.execIspressed idx s
  | .arm => Sys2Proof.Machine.execArm s
  | .cbdone => Sys2Proof.Machine.execCbdone s
  | .tReleasedLow => Sys2Proof.Machine.execTReleasedLow s
  | .tReleasedHigh => Sys2Proof.Machine.execTReleasedHigh s
  | .tPressShakeLow => Sys2Proof.Machine.execTPressShakeLow s
  | .tPressShakeHigh => Sys2Proof.Machine.execTPressShakeHigh s
  | .tPressedLow => Sys2Proof.Machine.execTPressedLow s
  | .tPressedHigh => Sys2Proof.Machine.execTPressedHigh s
  | .tReleaseShakeLow => Sys2Proof.Machine.execTReleaseShakeLow s
  | .tReleaseShakeHigh => Sys2Proof.Machine.execTReleaseShakeHigh s

end Sys2Proof.Machine
end

