-- ==== Sys2Proof/Machine/Turns.lean ====
section
/-! DEFINITION. What each turn does: the agents' steps (R8), which issue a command (R181), or evaluate a key (R159),
and the reset input (R270, R271). A turn whose agent has no step passes (log 2). -/

namespace Sys2Proof.Machine

/-- The turn offered at the `k`-th step from here: listed, or else the free value (log 1). -/
def Env.turnAt (e : Env) (k : Nat) : Turn := (e.sched[k]?).getD (Config.freeTurn (e.turnCount + k))

/-- What `ReadLevel(p)` answers as the `k`-th pin read from here (R10): the answer listed for that call, or else the free
value of that pin and call (R75; log 3). -/
def Env.levelAt (e : Env) (p : PinRef) (k : Nat) : Level :=
  (e.draws[k]?).getD (Config.freeLevel p (e.drawCount + k))

/-- The turn is taken off the schedule. -/
def State.takeTurn (s : State) : State :=
  { s with env := { s.env with sched := s.env.sched.tail, turnCount := s.env.turnCount + 1 } }

/-- `ReadLevel(p)` has been asked: `p` stands at the pin reader, unchanged (R36, R72), and one answer is used up. The
block's own state is unchanged by it (R75). -/
def State.takeDraw (s : State) (p : PinRef) : State :=
  { s with env := { s.env with draws := s.env.draws.tail, drawCount := s.env.drawCount + 1, pinAsked := some p } }

/-- HOST's next word is taken off its program. -/
def State.takeHostWord (s : State) : State :=
  { s with env := { s.env with hostProg := s.env.hostProg.tail } }

/-- CB's next word is taken off its program. -/
def State.takeCbWord (s : State) : State :=
  { s with env := { s.env with cbProg := s.env.cbProg.tail } }

/-- The command stands on the ports. -/
def State.withPort (s : State) (a : Issuer) (c : Command) : State := { s with port := { agent := a, cmd := c } }

/-- A command with the operand ports at 0: TICK's and CB's commands sample no operand that takes effect (R181; log 10). -/
def bareWord (w : CmdWord) : Command := { word := w, argPin := 0, argPress := 0, argRelease := 0 }

/-- An agent issues a command: decode first (R240), then the instruction's meaning, which checks the agent. -/
def issue (a : Issuer) (c : Command) (s : State) : Host.Outcome State Fault Refusal :=
  match decode (.cmd c.word) with
  | .legal i => exec i (s.withPort a c)
  | .illegal _ => .next ((s.withPort a c).raiseFault .illegalCommand)

/-- HOST's step: the next word of its program, where R247 enables it and a word is left. -/
def hostTurn (s : State) : Host.Outcome State Fault Refusal :=
  if s.hostEnabled then
    match s.env.hostProg with
    | c :: _ => issue .host c s.takeHostWord
    | [] => .next s
  else .next s

/-- TICK's step: SCANTICK, where R246 enables it. -/
def tickTurn (s : State) : Host.Outcome State Fault Refusal :=
  if s.tickEnabled then issue .tick (bareWord 0x2000#16) s else .next s

/-- CB's step: its next word, while a callback runs (R205). With no word left the callback never returns (R202). -/
def cbTurn (s : State) : Host.Outcome State Fault Refusal :=
  if s.cbEnabled then
    match s.env.cbProg with
    | w :: _ => issue .cb (bareWord w) s.takeCbWord
    | [] => .next s
  else .next s

/-- EVAL_KEY (R159): `ReadLevel(KEY[CURSOR].PIN)`, address the ROM with `{STATE, level}`, run that entry. Where PIN holds
no value, reading it faults, before any level is drawn (R12). -/
def evalKey (s : State) : Host.Outcome State Fault Refusal :=
  match s.slot s.cursor with
  | some r => exec (decodeEntry (romAddr r.state (s.env.levelAt r.pin 0))) (s.takeDraw r.pin)
  | none => .next s.readNoValue

/-- ENGINE's step (R203). -/
def engineTurn (s : State) : Host.Outcome State Fault Refusal :=
  if s.engineEnabled then evalKey s else .next s

/-- The reset input (R270, R271): every piece of block state at its reset value, at any time. The parameters and the
world outside the block stay (log 11). -/
def State.resetBlock (s : State) : State := { State.reset with params := s.params, env := s.env }

/-- The turn `t`, already taken off the schedule. While FAULTED no agent has a step, so every turn but reset passes
(R239, R270; log 7): the enabling conditions say so. -/
def runTurn (t : Turn) (s : State) : Host.Outcome State Fault Refusal :=
  match t with
  | .host => hostTurn s
  | .tick => tickTurn s
  | .engine => engineTurn s
  | .cb => cbTurn s
  | .reset => .next s.resetBlock

end Sys2Proof.Machine
end

