-- ==== Sys2Proof/Machine/Stage.lean ====
section
/-! DEFINITION. How a given word becomes the very next instruction: what `State.withFetchWord` sets (log 13). The
machine fetches nothing (R85); a command is issued by the agent the opcode table names for it, and a ROM entry runs
when the engine addresses it. -/

namespace Sys2Proof.Machine

/-- The block at rest and not faulted, if it is not so already. -/
def State.atRest (s : State) : State :=
  if s.busy || s.faulted then { s with phase := .idle, pendingEvt := none, faulted := false, faultCode := 0#8 }
  else s

/-- HOST issues the word next. -/
def State.stageHost (s : State) (w : CmdWord) : State :=
  let s1 := s.atRest
  { s1 with env := { s1.env with sched := .host :: s1.env.sched, hostProg := bareWord w :: s1.env.hostProg } }

/-- TICK issues SCANTICK next: it needs ARMED (R246). -/
def State.stageTick (s : State) : State :=
  let s1 := s.atRest
  { s1 with armed := true, env := { s1.env with sched := .tick :: s1.env.sched } }

/-- Key `CURSOR` is live and holds `r`. -/
def State.stageKey (s : State) (r : KeyRecord) : State :=
  { s.writeSlot s.cursor r with
    count := if s.cursor.toNat < s.count.toNat then s.count else s.cursor + 1#8, armed := true }

/-- A record in a Key State, with the flag R161 gives it and the two handles of the record that stood there. -/
def KeyRecord.inState (r : KeyRecord) (st : KeyState) : KeyRecord :=
  { r with state := st, isPressed := st.isDown }

/-- The record at `CURSOR`, or one with no callbacks where there is none. -/
def State.keyOrBlank (s : State) : KeyRecord :=
  (s.slot s.cursor).getD
    { pin := ⟨0⟩, lastSample := .low, state := .released, isPressed := false, onPress := none, onRelease := none }

/-- CB issues the word next: a callback wait on key `CURSOR`, as mark-pressed leaves it (R162). -/
def State.stageCb (s : State) (w : CmdWord) : State :=
  let r := s.keyOrBlank
  let h := r.onPress.getD ⟨0⟩
  let s1 := s.atRest.stageKey { r with state := .pressShake, isPressed := true, onPress := some h }
  let s2 := State.emitEvent { s1 with pendingNext := .pressed } .press h
  { s2 with env := { s2.env with sched := .cb :: s2.env.sched, cbProg := w :: s2.env.cbProg } }

/-- The engine addresses the ROM at `a` next: key `CURSOR` in that state, the next pin answer that level. -/
def State.stageRom (s : State) (a : RomAddr) : State :=
  let s1 := s.atRest.stageKey (s.keyOrBlank.inState (romAddrState a))
  { s1 with phase := .run,
            env := { s1.env with sched := .engine :: s1.env.sched, draws := romAddrCond a :: s1.env.draws } }

/-- The agent that the opcode table names issues the word next; any other word is HOST's. -/
def State.stageCmd (s : State) (w : CmdWord) : State :=
  if w = 0x2000#16 then s.stageTick
  else if w = 0x5000#16 then s.stageCb w
  else s.stageHost w

end Sys2Proof.Machine
end

