-- ==== Sys2Proof/Machine/Step.lean ====
section
/-! DEFINITION. One step: the turn that is next is taken off the schedule and run (R81, R241). -/

namespace Sys2Proof.Machine

/-- One step of the machine: one atomic step of the agent whose turn it is (R11, R241), or reset. -/
def step (s : State) : Host.Outcome State Fault Refusal := runTurn (s.env.turnAt 0) s.takeTurn

/-- The state in which the instruction of that table row and word runs at the very next step (log 13). -/
def State.withFetchWord (s : State) (nbits w : Nat) : State :=
  if nbits ≤ 8 then s.stageRom (BitVec.ofNat 3 w) else s.stageCmd (BitVec.ofNat 16 w)

end Sys2Proof.Machine
end

