-- ==== Sys2Proof/Safety.lean ====
section
/-! DEFINITION. What claims are stated in: the invariants of R32, R39, R51, R161 and R162, a successful end of a run
(R286), the shapes an instruction's effect has (one key written, the cursor advanced), the engine step as R159 writes
it, and the history of one key under a sequence of samples (R160, R164, R165). -/

namespace Sys2Proof.Machine

/-- Outside a callback wait on key `i`, every key's flag is the state's (R161). -/
def State.FlagsAgree (s : State) : Prop :=
  ∀ (i : Nat) (r : KeyRecord), Registry.read s.keys i = some r → ¬ (s.phase = .waitCb ∧ s.cursor.toNat = i) →
    r.isPressed = r.state.isDown

/-- In a callback wait for a press (R162, R114): the flag is new, the state still the shake state. -/
def State.WaitsForPress (s : State) (e : Event) (r : KeyRecord) : Prop :=
  e.kind = .press ∧ r.state = .pressShake ∧ r.isPressed = true ∧ s.pendingNext = .pressed ∧ r.onPress = some e.handle

/-- In a callback wait for a release (R162, R114). -/
def State.WaitsForRelease (s : State) (e : Event) (r : KeyRecord) : Prop :=
  e.kind = .release ∧ r.state = .releaseShake ∧ r.isPressed = false ∧ s.pendingNext = .released ∧
    r.onRelease = some e.handle

/-- The pending event names key `CURSOR`, and one of R162's two cases holds of that key. -/
def State.WaitsRightly (s : State) : Prop :=
  ∀ (e : Event) (r : KeyRecord), s.pendingEvt = some e → s.slot s.cursor = some r →
    e.key = s.cursor ∧ (s.WaitsForPress e r ∨ s.WaitsForRelease e r)

/-- The invariant every step keeps. -/
structure State.Inv (s : State) : Prop where
  /-- the register file is in canonical form -/
  registryWf : Registry.wf s.keys = true
  /-- the slots that hold a whole record are exactly the live ones (R32) -/
  liveWritten : ∀ i : Nat, (Registry.read s.keys i).isSome = decide (i < s.count.toNat)
  /-- a slot that is not live holds no value in any field (R32) -/
  nonLiveEmpty : ∀ i : Nat, s.count.toNat ≤ i → Registry.find s.keys i = none
  /-- `COUNT <= CAP` (R39) -/
  countLeCap : s.count.toNat ≤ s.params.cap.toNat
  /-- `PHASE ∈ {RUN, WAIT_CB}` implies `ARMED = 1` and `CURSOR < COUNT` (R51) -/
  busyArmed : s.phase ≠ .idle → s.armed = true ∧ s.cursor.toNat < s.count.toNat
  /-- `PHASE = WAIT_CB` if and only if `PENDING_EVT ≠ none` (R51) -/
  waitIffEvent : s.phase = .waitCb ↔ s.pendingEvt ≠ none
  /-- R161 -/
  flagsAgree : s.FlagsAgree
  /-- R162 -/
  waitsRightly : s.WaitsRightly
  /-- the fault registers hold code 0 unfaulted, and a code from 1 to 5 faulted (R42, R233) -/
  faultCodeLegal : (s.faulted = false → s.faultCode = 0#8) ∧
    (s.faulted = true → 1 ≤ s.faultCode.toNat ∧ s.faultCode.toNat ≤ 5)

/-- A run ends successfully (R286): HOST's last word is issued, no scan is in progress, nothing faulted. -/
def State.RunEnded (s : State) : Prop := s.env.hostProg = [] ∧ s.phase = .idle ∧ s.faulted = false

/-- The callbacks still to run issue only what R205 gives them: ISPRESSED and CBDONE. -/
def State.CallbacksBehave (s : State) : Prop :=
  ∀ w ∈ s.env.cbProg, decodeCmd w = .legal .cbdone ∨ ∃ idx, decodeCmd w = .legal (.ispressed idx)

/-! ### Shapes of an effect -/

/-- From `s` to `t`, slot `i` got `r` and every other slot kept what it held. -/
def KeyWritten (s t : State) (i : Byte) (r : KeyRecord) : Prop :=
  t.slot i = some r ∧ ∀ j : Nat, j ≠ i.toNat → Registry.find t.keys j = Registry.find s.keys j

/-- From `s` to `t`, the sequencer went on past key `CURSOR` (R206). -/
def Advanced (s t : State) : Prop :=
  if s.cursor.toNat + 1 < s.count.toNat then t.phase = .run ∧ t.cursor.toNat = s.cursor.toNat + 1
  else t.phase = .idle ∧ t.cursor = s.cursor

/-- From `s` to `t`, a fault was raised (R232): the first one since reset is recorded, nothing else changed, and the
step gave no response. -/
def FaultRaised (s t : State) (code : Byte) : Prop :=
  t = { s with faulted := true, faultCode := if s.faulted then s.faultCode else code, response := none }

/-! ### EVAL_KEY as R159 writes it -/

/-- The pseudocode of R159 for key `CURSOR` with record `r` and sample `lv`, over the first-match lookup of R141. -/
def State.evalKeyAsWritten (s : State) (lv : Level) (r : KeyRecord) : State :=
  match lookup r.state lv with
  | none => (s.writeSlot s.cursor { r with lastSample := lv }).advance
  | some (nxt, .none) => (s.writeSlot s.cursor { r with lastSample := lv, state := nxt }).advance
  | some (nxt, .markPressed) =>
    match r.onPress with
    | some h =>
      State.emitEvent { s.writeSlot s.cursor { r with lastSample := lv, isPressed := true } with pendingNext := nxt }
        .press h
    | none => (s.writeSlot s.cursor { r with lastSample := lv, isPressed := true, state := nxt }).advance
  | some (nxt, .clearPressed) =>
    match r.onRelease with
    | some h =>
      State.emitEvent { s.writeSlot s.cursor { r with lastSample := lv, isPressed := false } with pendingNext := nxt }
        .release h
    | none => (s.writeSlot s.cursor { r with lastSample := lv, isPressed := false, state := nxt }).advance

/-! ### The history of one key -/

/-- The action an evaluation performs (R141, R159). -/
def KeyRecord.actionAt (r : KeyRecord) (lv : Level) : Action :=
  match lookup r.state lv with
  | none => .none
  | some (_, a) => a

/-- The record after evaluations at these samples, oldest first. -/
def KeyRecord.after (r : KeyRecord) (lvs : List Level) : KeyRecord :=
  match lvs with
  | [] => r
  | lv :: rest => (r.evaluated lv).after rest

/-- The actions performed by evaluations at these samples, oldest first, evaluations without one left out. -/
def KeyRecord.actions (r : KeyRecord) (lvs : List Level) : List Action :=
  match lvs with
  | [] => []
  | lv :: rest =>
    if r.actionAt lv = .none then (r.evaluated lv).actions rest
    else r.actionAt lv :: (r.evaluated lv).actions rest

/-- No two consecutive samples are LOW (R165). -/
def noTwoLow (lvs : List Level) : Bool :=
  match lvs with
  | [] => true
  | .high :: rest => noTwoLow rest
  | .low :: rest => !decide (rest.head? = some .low) && noTwoLow rest

/-- The list alternates mark-pressed and clear-pressed, starting with `first` (R164). -/
def alternates (first : Action) (as : List Action) : Bool :=
  match as with
  | [] => true
  | a :: rest =>
    decide (a = first) &&
      alternates (match first with | .markPressed => .clearPressed | .clearPressed => .markPressed | .none => .none) rest

/-! ### Scans -/

/-- A tick, and then `n` times ENGINE's turn and CB's (R241: inside a scan exactly one of the two is enabled). -/
def scanTurns (n : Nat) : List Turn :=
  match n with
  | 0 => []
  | n + 1 => .engine :: .cb :: scanTurns n

/-- A slot with a change made to its record, if it holds one. -/
def Slot.mapRecord (v : Slot) (g : KeyRecord → KeyRecord) : Slot :=
  match v with
  | .record r => .record (g r)
  | .stateOnly st => .stateOnly st

/-- The state with every LAST_SAMPLE forgotten (R35). -/
def State.forgetSamples (s : State) : State :=
  { s with keys := s.keys.map (fun p => (p.1, p.2.mapRecord (fun r => { r with lastSample := .low }))) }

/-- An outcome with every LAST_SAMPLE forgotten. -/
def forgetSamplesOutcome (o : Host.Outcome State Fault Refusal) : Host.Outcome State Fault Refusal :=
  match o with
  | .next t => .next t.forgetSamples
  | .fault f => .fault f
  | .refused r => .refused r

end Sys2Proof.Machine
end

