-- ==== Sys2Proof/Certificates/Slice0/Obligations.lean ====
section
/-! DEFINITION. The statements about the model, each from the numbered rules its docstring names. `t = { s with … }`
states a frame: every field not named there is unchanged. Register-file frames are stated through `Registry.read`. -/

open Sys2Proof Sys2Proof.Machine

/-! ### Encodings -/

/-- R100 to R107, R115, R116: no bit of an encoding is dropped, with `IDX` at each of its 256 values. -/
def Obligations.DecodeOfEncodeIsTheInstruction : Prop :=
  ∀ i : Instr, i.wellFormed = true → decode (encode i) = .legal i

/-- R117, R118: each legal word and each ROM address is the one encoding of what it decodes to. -/
def Obligations.LegalCodesHaveOneMeaning : Prop :=
  ∀ (c : Code) (i : Instr), decode c = .legal i → encode i = c

/-- R118: exactly the words with `OP` from 1 to 5, `RSV = 0`, and `IDX = 0` unless `OP = 3`, are legal. -/
def Obligations.LegalWordsAreThoseOfTheOpcodeMap : Prop :=
  ∀ w : CmdWord, (∃ i, decodeCmd w = .legal i) ↔
    (w.toNat / 256 % 16 = 0 ∧ 1 ≤ w.toNat / 4096 ∧ w.toNat / 4096 ≤ 5 ∧ (w.toNat % 256 = 0 ∨ w.toNat / 4096 = 3))

/-- Words written out from R102 to R106 and from the vectors F1 to F7 of 95_test_vectors.md. -/
def Obligations.WordsOfTheSpecDecode : Prop :=
  decodeCmd 0b0001000000000000#16 = .legal .register ∧ decodeCmd 0b0010000000000000#16 = .legal .scantick ∧
  decodeCmd 0b0011000011111111#16 = .legal (.ispressed 255#8) ∧ decodeCmd 0b0100000000000000#16 = .legal .arm ∧
  decodeCmd 0b0101000000000000#16 = .legal .cbdone ∧ decodeEntry 0b010#3 = .tPressShakeLow ∧
  decodeEntry 0b111#3 = .tReleaseShakeHigh ∧ decodeCmd 0x0000#16 = .illegal .reservedOpcode ∧
  decodeCmd 0x3100#16 = .illegal .reservedBits ∧ decodeCmd 0x4080#16 = .illegal .indexNotZero

/-- R102: the fields of the operand ports; with the present bit 0 the handle bits are ignored. -/
def Obligations.OperandPortFields : Prop :=
  ∀ w h : Nat, h < 2 ^ w →
    pinOperand w h = ⟨h⟩ ∧ cbOperand w h = none ∧ cbOperand w (2 ^ w + h) = some ⟨h⟩

/-! ### Commands -/

/-- R182, R187: the four outcomes of REGISTER. `COUNT > CAP` is excluded by R39. -/
def Obligations.RegisterFollowsItsPseudocode : Prop :=
  ∀ s : State,
    (s.port.agent = .cb → ∃ t, exec .register s = .next t ∧ FaultRaised s t 3#8) ∧
    (s.port.agent = .host → s.armed = true → ∃ t, exec .register s = .next t ∧ FaultRaised s t 2#8) ∧
    (s.port.agent = .host → s.armed = false → s.count = s.params.cap →
      ∃ t, exec .register s = .next t ∧ t = { s with response := some 0xFF#8 }) ∧
    (s.port.agent = .host → s.armed = false → s.count.toNat < s.params.cap.toNat →
      ∃ t, exec .register s = .next t ∧
        KeyWritten s t s.count
          { pin := s.argPin, lastSample := .low, state := .released, isPressed := false,
            onPress := s.argPress, onRelease := s.argRelease } ∧
        t.count.toNat = s.count.toNat + 1 ∧ t.response = some s.count ∧
        t = { s with keys := t.keys, count := t.count, response := t.response })

/-- R188, R189: ISPRESSED, from HOST or CB, answers the flag of a live key and 0 for every other index, and changes
nothing but the response. -/
def Obligations.IspressedAnswersFlagOrZero : Prop :=
  ∀ (s : State) (idx : Byte), s.port.agent = .host ∨ s.port.agent = .cb →
    (∀ r, idx.toNat < s.count.toNat → s.slot idx = some r →
      exec (.ispressed idx) s = .next { s with response := some (if r.isPressed then 0x01#8 else 0x00#8) }) ∧
    (s.count.toNat ≤ idx.toNat → exec (.ispressed idx) s = .next { s with response := some 0x00#8 })

/-- R191, R162: a callback that asks for its own key reads the new flag, 1 in a press callback, 0 in a release one. -/
def Obligations.CallbackReadsItsNewFlag : Prop :=
  ∀ (s : State) (e : Event), s.Inv → s.phase = .waitCb → s.pendingEvt = some e → s.port.agent = .cb →
    exec (.ispressed s.cursor) s =
      .next { s with response := some (if e.kind = .press then 0x01#8 else 0x00#8) }

/-- R192: ARM sets ARMED and nothing else, whatever it was; from a callback it faults. -/
def Obligations.ArmSetsArmed : Prop :=
  ∀ s : State,
    (s.port.agent = .host → ∃ t, exec .arm s = .next t ∧ t = { s with armed := true, response := none }) ∧
    (s.port.agent = .cb → ∃ t, exec .arm s = .next t ∧ FaultRaised s t 3#8)

/-- R193, R194, R237: SCANTICK from TICK starts a scan at key 0, or changes nothing (and reads no pin) when COUNT = 0;
from HOST or CB it faults. -/
def Obligations.ScantickStartsAScan : Prop :=
  ∀ s : State,
    (s.port.agent = .tick → s.armed = true → s.phase = .idle → s.faulted = false →
      (0 < s.count.toNat → ∃ t, exec .scantick s = .next t ∧
        t = { s with cursor := 0#8, phase := .run, response := none }) ∧
      (s.count.toNat = 0 → ∃ t, exec .scantick s = .next t ∧ t = { s with response := none })) ∧
    (s.port.agent = .host → ∃ t, exec .scantick s = .next t ∧ FaultRaised s t 4#8) ∧
    (s.port.agent = .cb → ∃ t, exec .scantick s = .next t ∧ FaultRaised s t 3#8)

/-- R198, R199, R206: CBDONE from CB commits PENDING_NEXT to key CURSOR, withdraws the event and advances; from HOST it
faults, in every state. A slot CURSOR without a record: CbdoneOnASlotWithoutARecord. -/
def Obligations.CbdoneCommitsAndAdvances : Prop :=
  ∀ s : State,
    (∀ r, s.port.agent = .cb → s.phase = .waitCb → s.faulted = false → s.slot s.cursor = some r →
      ∃ t, exec .cbdone s = .next t ∧ KeyWritten s t s.cursor { r with state := s.pendingNext } ∧
        t.pendingEvt = none ∧ t.response = none ∧ Advanced s t ∧
        t = { s with keys := t.keys, cursor := t.cursor, phase := t.phase, pendingEvt := none, response := none }) ∧
    (s.port.agent = .host → ∃ t, exec .cbdone s = .next t ∧ FaultRaised s t 5#8)

/-- R198, R38, R206, and the model's own reading of them (log 8, DEDUCED): where slot CURSOR holds no record, CBDONE from
CB runs as well; the slot then holds STATE alone. R32 and R51 exclude such a state from every run. -/
def Obligations.CbdoneOnASlotWithoutARecord : Prop :=
  ∀ s : State, s.port.agent = .cb → s.phase = .waitCb → s.faulted = false → s.slot s.cursor = none →
    ∃ t, exec .cbdone s = .next t ∧
      Registry.find t.keys s.cursor.toNat = some (.stateOnly s.pendingNext) ∧
      (∀ j : Nat, j ≠ s.cursor.toNat → Registry.find t.keys j = Registry.find s.keys j) ∧ Advanced s t ∧
      t = { s with keys := t.keys, cursor := t.cursor, phase := t.phase, pendingEvt := none, response := none }

/-- R236, R240: from a callback, REGISTER, ARM and SCANTICK fault with code 3 in every state, before any check of ARMED
or of the capacity. -/
def Obligations.CallbackMustNotReenter : Prop :=
  ∀ (s : State) (i : Instr), i ∈ [Instr.register, Instr.arm, Instr.scantick] → s.port.agent = .cb →
    ∃ t, exec i s = .next t ∧ FaultRaised s t 3#8

/-- R237, R199: SCANTICK and CBDONE from the foreground fault, under STALLED and INTERLEAVED alike. -/
def Obligations.ForegroundMisuseFaults : Prop :=
  ∀ (s : State) (i : Instr) (code : Byte), (i, code) ∈ [(Instr.scantick, 4#8), (Instr.cbdone, 5#8)] →
    s.port.agent = .host → ∃ t, exec i s = .next t ∧ FaultRaised s t code

/-- R183: a full registry answers 0xFF and changes nothing, and answers it again. -/
def Obligations.FullRegistryAnswersTheSentinel : Prop :=
  ∀ s : State, s.port.agent = .host → s.armed = false → s.count = s.params.cap →
    ∃ t, exec .register s = .next t ∧ t = { s with response := some 0xFF#8 } ∧ exec .register t = .next t

/-- R181, R203, R205, R246 with log 9: where an instruction stops. A command from an agent that never issues it there, and
a ROM row outside ENGINE's enabling, stop by name. -/
def Obligations.ForbiddenIssuesStopByName : Prop :=
  ∀ s : State,
    (∀ idx, s.port.agent = .tick → ∀ i ∈ [Instr.register, Instr.ispressed idx, Instr.arm, Instr.cbdone],
      exec i s = .fault .neverIssued) ∧
    (s.port.agent = .tick → s.armed = false ∨ s.phase ≠ .idle ∨ s.faulted = true →
      exec .scantick s = .fault .neverIssued) ∧
    (s.port.agent = .cb → s.phase ≠ .waitCb ∨ s.faulted = true → exec .cbdone s = .fault .neverIssued) ∧
    (s.phase ≠ .run ∨ s.faulted = true → ∀ a, exec (decodeEntry a) s = .fault .neverIssued)

/-- R12, R232, D23, V5: a read of a field that holds no value faults: ISPRESSED's, a ROM row's, and ENGINE's, which then
draws no level. That FAULTED records it follows from V5's treatment (log 8, DEDUCED); which of the five codes it records
is a free value (log 20, DESIGN CHOICE). R32 and R51 exclude such states from every run. -/
def Obligations.ReadOfNoValueFaults : Prop :=
  ∀ s : State,
    (∀ idx, s.port.agent ≠ .tick → idx.toNat < s.count.toNat → s.slot idx = none →
      ∃ (t : State) (c : FaultCause), exec (.ispressed idx) s = .next t ∧ FaultRaised s t c.code) ∧
    (s.phase = .run → s.faulted = false → s.slot s.cursor = none →
      (∀ a, ∃ (t : State) (c : FaultCause), exec (decodeEntry a) s = .next t ∧ FaultRaised s t c.code) ∧
      (s.env.turnAt 0 = .engine →
        ∃ (t : State) (c : FaultCause), step s = .next t ∧ FaultRaised s.takeTurn t c.code))

/-! ### The transition ROM -/

/-- R142: no two rows of the table match one pair, and `T` is the ROM. -/
def Obligations.LookupIsTheRom : Prop :=
  (∀ row ∈ table, ∀ row' ∈ table, row.current = row'.current → row.condition = row'.condition → row = row') ∧
  ∀ (st : KeyState) (lv : Level),
    lookup st lv = if (romRead (romAddr st lv)).hit
      then some ((romRead (romAddr st lv)).next, (romRead (romAddr st lv)).action) else none

/-- R143, R146, R148, R149: the four transitions without an action write LAST_SAMPLE and STATE of key CURSOR and
advance; no flag, no event. -/
def Obligations.TransitionsWithoutAction : Prop :=
  ∀ (s : State) (r : KeyRecord) (i : Instr) (st nxt : KeyState) (lv : Level),
    (i, st, lv, nxt) ∈
      [(Instr.tReleasedLow, KeyState.released, Level.low, KeyState.pressShake),
       (Instr.tPressShakeHigh, KeyState.pressShake, Level.high, KeyState.released),
       (Instr.tPressedHigh, KeyState.pressed, Level.high, KeyState.releaseShake),
       (Instr.tReleaseShakeLow, KeyState.releaseShake, Level.low, KeyState.pressed)] →
    s.phase = .run → s.faulted = false → s.slot s.cursor = some r → r.state = st →
    ∃ t, exec i s = .next t ∧ KeyWritten s t s.cursor { r with lastSample := lv, state := nxt } ∧ Advanced s t ∧
      t = { s with keys := t.keys, cursor := t.cursor, phase := t.phase }

/-- R144, R147, R151: the two unmatched pairs change neither STATE nor the flag of key CURSOR; the sample is stored and
the scan advances. -/
def Obligations.UnmatchedPairsKeepTheState : Prop :=
  ∀ (s : State) (r : KeyRecord) (i : Instr) (st : KeyState) (lv : Level),
    (i, st, lv) ∈
      [(Instr.tReleasedHigh, KeyState.released, Level.high), (Instr.tPressedLow, KeyState.pressed, Level.low)] →
    s.phase = .run → s.faulted = false → s.slot s.cursor = some r → r.state = st →
    ∃ t, exec i s = .next t ∧ KeyWritten s t s.cursor { r with lastSample := lv } ∧ Advanced s t ∧
      t = { s with keys := t.keys, cursor := t.cursor, phase := t.phase }

/-- R145, R153, R154: mark-pressed. Without a handle the transition completes in one step; with one, the flag is
written, the event emitted and the state write waits, and the callback's CBDONE then makes it. -/
def Obligations.PressShakeLowMarksPressed : Prop :=
  ∀ (s : State) (r : KeyRecord), s.phase = .run → s.faulted = false → s.slot s.cursor = some r →
    r.state = .pressShake →
    (r.onPress = none →
      ∃ t, exec .tPressShakeLow s = .next t ∧
        KeyWritten s t s.cursor { r with lastSample := .low, isPressed := true, state := .pressed } ∧
        Advanced s t ∧ t = { s with keys := t.keys, cursor := t.cursor, phase := t.phase }) ∧
    (∀ h, r.onPress = some h →
      ∃ t, exec .tPressShakeLow s = .next t ∧
        KeyWritten s t s.cursor { r with lastSample := .low, isPressed := true } ∧
        t = { s with keys := t.keys, phase := .waitCb, pendingNext := .pressed,
                     pendingEvt := some { kind := .press, key := s.cursor, handle := h } } ∧
        ∀ c, ∃ u, exec .cbdone (t.withPort .cb c) = .next u ∧
          KeyWritten s u s.cursor { r with lastSample := .low, isPressed := true, state := .pressed } ∧
          u.pendingEvt = none ∧ Advanced s u)

/-- R150, R155, R156: clear-pressed, in the same two forms. -/
def Obligations.ReleaseShakeHighClearsPressed : Prop :=
  ∀ (s : State) (r : KeyRecord), s.phase = .run → s.faulted = false → s.slot s.cursor = some r →
    r.state = .releaseShake →
    (r.onRelease = none →
      ∃ t, exec .tReleaseShakeHigh s = .next t ∧
        KeyWritten s t s.cursor { r with lastSample := .high, isPressed := false, state := .released } ∧
        Advanced s t ∧ t = { s with keys := t.keys, cursor := t.cursor, phase := t.phase }) ∧
    (∀ h, r.onRelease = some h →
      ∃ t, exec .tReleaseShakeHigh s = .next t ∧
        KeyWritten s t s.cursor { r with lastSample := .high, isPressed := false } ∧
        t = { s with keys := t.keys, phase := .waitCb, pendingNext := .released,
                     pendingEvt := some { kind := .release, key := s.cursor, handle := h } } ∧
        ∀ c, ∃ u, exec .cbdone (t.withPort .cb c) = .next u ∧
          KeyWritten s u s.cursor { r with lastSample := .high, isPressed := false, state := .released } ∧
          u.pendingEvt = none ∧ Advanced s u)

/-! ### Steps -/

/-- R159, R141, R36, R72, R75: ENGINE's step, which reads the ROM, is the pseudocode over the first-match lookup, on the
level that `ReadLevel` answers for key CURSOR's PIN. That the draw uses up one listed answer, and that the pin asked for
is kept beside the answers, is the model's choice (log 3). -/
def Obligations.EngineStepIsEvalKey : Prop :=
  ∀ (s : State) (r : KeyRecord), s.env.turnAt 0 = .engine → s.phase = .run → s.faulted = false →
    s.slot s.cursor = some r →
    step s = .next (State.evalKeyAsWritten (s.takeTurn.takeDraw r.pin) (s.env.levelAt r.pin 0) r)

/-- R181, R203, R205, R246, R247: when an enabled agent's turn comes, `step` is `exec` of what its word (for ENGINE, the
ROM address) decodes to, with the word on the ports under that agent's name. -/
def Obligations.StepRunsTheDecodedInstruction : Prop :=
  ∀ (s : State) (i : Instr),
    (∀ c rest, s.env.turnAt 0 = .host → s.hostEnabled = true → s.env.hostProg = c :: rest →
      decode (.cmd c.word) = .legal i →
      step s = exec i (s.takeTurn.takeHostWord.withPort .host c)) ∧
    (∀ w rest, s.env.turnAt 0 = .cb → s.cbEnabled = true → s.env.cbProg = w :: rest →
      decode (.cmd w) = .legal i →
      step s = exec i (s.takeTurn.takeCbWord.withPort .cb (bareWord w))) ∧
    (s.env.turnAt 0 = .tick → s.tickEnabled = true →
      step s = exec .scantick (s.takeTurn.withPort .tick (bareWord 0x2000#16))) ∧
    (∀ r, s.env.turnAt 0 = .engine → s.engineEnabled = true → s.slot s.cursor = some r →
      decode (.rom (romAddr r.state (s.env.levelAt r.pin 0))) = .legal i →
      step s = exec i (s.takeTurn.takeDraw r.pin))

/-- R234, R240: a word that decodes to Illegal is not executed: HOST or CB issuing it raises ILLEGAL_COMMAND. -/
def Obligations.IllegalWordRaisesIllegalCommand : Prop :=
  ∀ (s : State) (why : IllegalWord),
    (∀ c rest, s.env.turnAt 0 = .host → s.hostEnabled = true → s.env.hostProg = c :: rest →
      decode (.cmd c.word) = .illegal why →
      ∃ t, step s = .next t ∧ FaultRaised (s.takeTurn.takeHostWord.withPort .host c) t 1#8) ∧
    (∀ w rest, s.env.turnAt 0 = .cb → s.cbEnabled = true → s.env.cbProg = w :: rest →
      decode (.cmd w) = .illegal why →
      ∃ t, step s = .next t ∧ FaultRaised (s.takeTurn.takeCbWord.withPort .cb (bareWord w)) t 1#8)

/-- R203, R205, R239, R246, R247: an agent that is not enabled has no step. That its turn then passes, with only the
schedule moving on, is the model's choice (log 2). -/
def Obligations.DisabledAgentHasNoStep : Prop :=
  ∀ s : State,
    (s.env.turnAt 0 = .host →
      s.faulted = true ∨ (s.phase ≠ .idle ∧ s.params.hostDuringScan = .stalled) → step s = .next s.takeTurn) ∧
    (s.env.turnAt 0 = .tick → s.armed = false ∨ s.phase ≠ .idle ∨ s.faulted = true → step s = .next s.takeTurn) ∧
    (s.env.turnAt 0 = .engine → s.phase ≠ .run ∨ s.faulted = true → step s = .next s.takeTurn) ∧
    (s.env.turnAt 0 = .cb → s.phase ≠ .waitCb ∨ s.faulted = true → step s = .next s.takeTurn)

/-- R270, R271: reset, in every state, puts every piece of block state at the value of R49. The parameters stay (R7). -/
def Obligations.ResetFromEveryState : Prop :=
  ∀ s : State, s.env.turnAt 0 = .reset →
    ∃ t, step s = .next t ∧ t.count = 0#8 ∧ (∀ i : Nat, Registry.find t.keys i = none) ∧ t.armed = false ∧
      t.phase = .idle ∧ t.cursor = 0#8 ∧ t.pendingNext = .released ∧ t.pendingEvt = none ∧ t.faulted = false ∧
      t.faultCode = 0#8 ∧ t.params = s.params

/-- R272: after reset every ISPRESSED of HOST answers 0, and the first REGISTER answers index 0. -/
def Obligations.AfterResetTheRegistryIsEmpty : Prop :=
  ∀ (s : State) (c : Command), s.params.wellFormed = true →
    (∀ idx : Byte, exec (.ispressed idx) (s.resetBlock.withPort .host c) =
      .next { s.resetBlock.withPort .host c with response := some 0x00#8 }) ∧
    ∃ t, exec .register (s.resetBlock.withPort .host c) = .next t ∧ t.response = some 0x00#8 ∧ t.count = 1#8

/-- R47: the fields of STATUS, each at its bits. -/
def Obligations.StatusWordFields : Prop :=
  ∀ s : State,
    s.status.extractLsb' 0 8 = s.count ∧ s.status.extractLsb' 8 1 = BitVec.ofBool s.armed ∧
    s.status.extractLsb' 9 2 = s.phase.code ∧ s.status.extractLsb' 11 1 = BitVec.ofBool s.faulted ∧
    s.status.extractLsb' 12 2 = s.pendingNext.code ∧
    s.status.extractLsb' 14 1 = BitVec.ofBool s.pendingEvt.isSome ∧
    s.status.extractLsb' 15 1 = (match s.pendingEvt with | none => 0#1 | some e => e.kind.code) ∧
    s.status.extractLsb' 16 8 = s.cursor ∧ s.status.extractLsb' 24 8 = s.faultCode

/-! ### Invariants and rules about every step -/

/-- R49: the reset state satisfies the invariant. -/
def Obligations.ResetSatisfiesTheInvariant : Prop := State.reset.Inv

/-- R32, R39, R51, R161, R162, R233: every step keeps the invariant. -/
def Obligations.EveryStepKeepsTheInvariant : Prop :=
  ∀ s t : State, s.Inv → step s = .next t → t.Inv

/-- R181, R205, R239, R246: every step, from every state, answers a next state: no agent issues a command that it never
issues, and nothing is refused. That `step` answers next also where no agent has a step is the model's choice (log 2),
and so it does after a recorded fault (log 7) and where it records one for a read of a field without a value (log 8). -/
def Obligations.EveryStepCompletes : Prop :=
  ∀ s : State, ∃ t, step s = .next t

/-- R12, R190, R230, R233 to R238: under the invariant, a step records a fault only where HOST or CB issues a word that
breaks the contract, and the code is that of the breach. So no field without a value is read, and neither ENGINE nor TICK
nor ISPRESSED faults. -/
def Obligations.FaultsAreRecordedForTheirCausesOnly : Prop :=
  ∀ s t : State, s.Inv → step s = .next t → s.faulted = false → t.faulted = true →
    (∃ c rest, s.env.turnAt 0 = .host ∧ s.hostEnabled = true ∧ s.env.hostProg = c :: rest ∧
      ((∃ why, decodeCmd c.word = .illegal why ∧ t.faultCode = 1#8) ∨
       (decodeCmd c.word = .legal .register ∧ s.armed = true ∧ t.faultCode = 2#8) ∨
       (decodeCmd c.word = .legal .scantick ∧ t.faultCode = 4#8) ∨
       (decodeCmd c.word = .legal .cbdone ∧ t.faultCode = 5#8))) ∨
    (∃ w rest, s.env.turnAt 0 = .cb ∧ s.cbEnabled = true ∧ s.env.cbProg = w :: rest ∧
      ((∃ why, decodeCmd w = .illegal why ∧ t.faultCode = 1#8) ∨
       (∃ i ∈ [Instr.register, Instr.arm, Instr.scantick], decodeCmd w = .legal i ∧ t.faultCode = 3#8)))

/-- R36, R37, R38, R184, R197: while nothing resets the block, a written record keeps its index, PIN and handles, and
its other fields change only at key CURSOR: by ENGINE's step in RUN, or by CB's in WAIT_CB, which writes STATE alone. -/
def Obligations.RecordsChangeOnlyByTheScan : Prop :=
  ∀ (s t : State) (i : Nat) (r : KeyRecord), s.Inv → step s = .next t → s.env.turnAt 0 ≠ .reset →
    Registry.read s.keys i = some r →
    ∃ r', Registry.read t.keys i = some r' ∧ r'.pin = r.pin ∧ r'.onPress = r.onPress ∧ r'.onRelease = r.onRelease ∧
      (r' ≠ r → i = s.cursor.toNat ∧
        ((s.env.turnAt 0 = .engine ∧ s.phase = .run) ∨
         (s.env.turnAt 0 = .cb ∧ s.phase = .waitCb ∧ r' = { r with state := s.pendingNext })))

/-- R7, R39, R40, R42, R206: while nothing resets the block, the parameters never change, ARMED and FAULTED are never
cleared, a recorded fault code stays, COUNT never decreases, and once armed it does not change. -/
def Obligations.StickyRegistersStay : Prop :=
  ∀ s t : State, s.Inv → step s = .next t → s.env.turnAt 0 ≠ .reset →
    t.params = s.params ∧ (s.armed = true → t.armed = true ∧ t.count = s.count) ∧
    (s.faulted = true → t.faulted = true ∧ t.faultCode = s.faultCode) ∧ s.count.toNat ≤ t.count.toNat

/-- R157, R193, R198, R206, and R248 with the model's own choice of ONE context, named from PHASE alone (log 19; R248
itself never leaves the foreground): while nothing resets the block, that context changes in three ways only: from
foreground to scan by TICK's step; from scan to callback or back to foreground by ENGINE's; from callback to scan or
foreground by CB's. -/
def Obligations.ContextChangesOnlyByItsAgent : Prop :=
  ∀ s t : State, step s = .next t → s.env.turnAt 0 ≠ .reset → t.context ≠ s.context →
    (s.context = .foreground ∧ s.env.turnAt 0 = .tick ∧ t.context = .scan) ∨
    (s.context = .scan ∧ s.env.turnAt 0 = .engine) ∨
    (s.context = .callback ∧ s.env.turnAt 0 = .cb)

/-- R286: in the step after a successful end, TICK may step, or reset may come; neither faults, and no callback is waited
for. Later steps: AfterTheHostNothingFaults. -/
def Obligations.EndedRunDoesNotFault : Prop :=
  ∀ s t : State, s.RunEnded → step s = .next t → t.faulted = false ∧ t.phase ≠ .waitCb

/-- R205, R236, R286: once HOST has issued its last word, as long as callbacks issue only what R205 gives them, no step
faults, in a scan or out of one, and it stays so. That HOST has no word left after a reset either is the model's choice:
reset keeps the world outside the block (log 11). The invariant is that of EveryStepKeepsTheInvariant. -/
def Obligations.AfterTheHostNothingFaults : Prop :=
  ∀ s t : State, s.Inv → s.env.hostProg = [] → s.CallbacksBehave → s.faulted = false → step s = .next t →
    t.env.hostProg = [] ∧ t.CallbacksBehave ∧ t.faulted = false

/-- R35: no rule reads LAST_SAMPLE: two states that differ in nothing else step to states that differ in nothing
else. -/
def Obligations.LastSampleIsNeverRead : Prop :=
  ∀ s : State, forgetSamplesOutcome (step s.forgetSamples) = forgetSamplesOutcome (step s)

/-- R241, R286: inside a scan that has not faulted, TICK is not enabled and exactly one of ENGINE and CB is. -/
def Obligations.OneOfEngineAndCbInsideAScan : Prop :=
  ∀ s : State, s.phase ≠ .idle → s.faulted = false →
    s.tickEnabled = false ∧
    ((s.phase = .run ∧ s.engineEnabled = true ∧ s.cbEnabled = false) ∨
     (s.phase = .waitCb ∧ s.engineEnabled = false ∧ s.cbEnabled = true))

/-- R193, R196, R206: under one schedule, a tick and then ENGINE's and CB's turns by turns, where each callback returns at
once (every schedule: ScanGoesOnInOrderInEveryStep): the scan ends, key `i` was evaluated once, at the `i`-th level drawn, `COUNT` levels were drawn, and CURSOR stays at the last
key. That a turn passes where its agent has no step is the model's choice (log 2). -/
def Obligations.ScanEvaluatesEachKeyOnceInOrder : Prop :=
  ∀ (s : State) (turns : List Turn) (words : List CmdWord), s.Inv → s.faulted = false → s.armed = true →
    s.phase = .idle → 0 < s.count.toNat →
    s.env.sched = .tick :: (scanTurns s.count.toNat ++ turns) →
    s.env.cbProg = List.replicate s.count.toNat 0x5000#16 ++ words →
    ∃ t, Host.Core.run Sys2Proof.core (2 * s.count.toNat + 1) s = .next t ∧
      t.phase = .idle ∧ t.faulted = false ∧ t.count = s.count ∧ t.cursor.toNat + 1 = s.count.toNat ∧
      t.pendingEvt = none ∧ t.env.sched = turns ∧ t.env.drawCount = s.env.drawCount + s.count.toNat ∧
      ∀ i : Nat, Registry.read t.keys i = (Registry.read s.keys i).map (fun r => r.evaluated (s.env.levelAt r.pin i))

/-- R36, R72, R193, R194, R196, R206, in every step under every schedule, whatever the callbacks and HOST issue: a scan
starts at key 0; a pin is read in ENGINE's step in RUN only, once, and it is key CURSOR's; that step leaves key CURSOR
for the next one, or for its callback; only CB's step then leaves it; every other step keeps key CURSOR. So each live
key's pin is read once in a scan, in index order, and key `i + 1`'s after key `i`'s callback has returned. -/
def Obligations.ScanGoesOnInOrderInEveryStep : Prop :=
  ∀ s t : State, s.Inv → step s = .next t → s.env.turnAt 0 ≠ .reset →
    (s.env.turnAt 0 = .engine → s.phase = .run → s.faulted = false →
      t.env.drawCount = s.env.drawCount + 1 ∧
      (∃ r, s.slot s.cursor = some r ∧ t.env.pinAsked = some r.pin) ∧
      ((t.phase = .waitCb ∧ t.cursor = s.cursor) ∨ Advanced s t)) ∧
    (s.env.turnAt 0 ≠ .engine ∨ s.phase ≠ .run ∨ s.faulted = true →
      t.env.drawCount = s.env.drawCount ∧ t.env.pinAsked = s.env.pinAsked ∧
      ((t.phase = s.phase ∧ t.cursor = s.cursor) ∨
       (s.env.turnAt 0 = .tick ∧ s.phase = .idle ∧ 0 < s.count.toNat ∧ t.phase = .run ∧ t.cursor = 0#8) ∨
       (s.env.turnAt 0 = .cb ∧ s.phase = .waitCb ∧ Advanced s t)))

/-! ### The history of one key -/

/-- R163: an evaluation in a shake state leaves it, at either level. -/
def Obligations.ShakeStateLastsOneEvaluation : Prop :=
  ∀ (r : KeyRecord) (lv : Level), r.state = .pressShake ∨ r.state = .releaseShake →
    (r.evaluated lv).state = .released ∨ (r.evaluated lv).state = .pressed

/-- R166: the steady level changes neither STATE nor the flag; the opposite level moves the state. -/
def Obligations.SteadyLevelChangesNothing : Prop :=
  ∀ r : KeyRecord,
    (r.state = .released → r.evaluated .high = { r with lastSample := .high } ∧
      (r.evaluated .low).state = .pressShake) ∧
    (r.state = .pressed → r.evaluated .low = { r with lastSample := .low } ∧
      (r.evaluated .high).state = .releaseShake)

/-- R160: from RELEASED, after any samples, mark-pressed is performed at a sample only if it and the one before are
LOW, and clear-pressed only if both are HIGH; a first sample performs neither. -/
def Obligations.ActionNeedsTwoEqualSamples : Prop :=
  ∀ (r : KeyRecord) (lvs : List Level) (a b : Level), r.state = .released →
    r.actionAt a = .none ∧
    ((r.after (lvs ++ [a])).actionAt b = .markPressed → a = .low ∧ b = .low) ∧
    ((r.after (lvs ++ [a])).actionAt b = .clearPressed → a = .high ∧ b = .high)

/-- R160, R165 with R143 and R145: from RELEASED, LOW twice accepts the press, with the action on the second sample;
from PRESSED, HIGH twice accepts the release. -/
def Obligations.TwoEqualSamplesAreAccepted : Prop :=
  ∀ r : KeyRecord,
    (r.state = .released → r.actions [.low, .low] = [.markPressed] ∧
      (r.after [.low, .low]).state = .pressed ∧ (r.after [.low, .low]).isPressed = true) ∧
    (r.state = .pressed → r.actions [.high, .high] = [.clearPressed] ∧
      (r.after [.high, .high]).state = .released ∧ (r.after [.high, .high]).isPressed = false)

/-- R165: from RELEASED, samples with no two LOW in a row never perform mark-pressed and never set the flag. -/
def Obligations.NoTwoLowNeverPresses : Prop :=
  ∀ (r : KeyRecord) (lvs : List Level), r.state = .released → r.isPressed = false → noTwoLow lvs = true →
    Action.markPressed ∉ r.actions lvs ∧ (r.after lvs).isPressed = false

/-- R164: from RELEASED, the actions alternate, starting with mark-pressed, and the count of mark-pressed less the
count of clear-pressed is the flag. -/
def Obligations.ActionsAlternate : Prop :=
  ∀ (r : KeyRecord) (lvs : List Level), r.state = .released → r.isPressed = false →
    alternates .markPressed (r.actions lvs) = true ∧
    (r.actions lvs).count .markPressed =
      (r.actions lvs).count .clearPressed + (if (r.after lvs).isPressed then 1 else 0)
end

