-- ==== Sys2Proof/Laws/State.lean ====
section
/-! SUPPORT. What each named update of the state leaves in each field: one lemma per field per update, so that no
proof unfolds a record update. -/

namespace Sys2Proof.Machine

variable (s : State)


/-! ### `respond` -/

@[simp] theorem respond_keys (v : Byte) : (s.respond v).keys = s.keys := rfl
@[simp] theorem respond_count (v : Byte) : (s.respond v).count = s.count := rfl
@[simp] theorem respond_armed (v : Byte) : (s.respond v).armed = s.armed := rfl
@[simp] theorem respond_phase (v : Byte) : (s.respond v).phase = s.phase := rfl
@[simp] theorem respond_cursor (v : Byte) : (s.respond v).cursor = s.cursor := rfl
@[simp] theorem respond_pendingNext (v : Byte) : (s.respond v).pendingNext = s.pendingNext := rfl
@[simp] theorem respond_pendingEvt (v : Byte) : (s.respond v).pendingEvt = s.pendingEvt := rfl
@[simp] theorem respond_faulted (v : Byte) : (s.respond v).faulted = s.faulted := rfl
@[simp] theorem respond_faultCode (v : Byte) : (s.respond v).faultCode = s.faultCode := rfl
@[simp] theorem respond_port (v : Byte) : (s.respond v).port = s.port := rfl
@[simp] theorem respond_response (v : Byte) : (s.respond v).response = some v := rfl
@[simp] theorem respond_params (v : Byte) : (s.respond v).params = s.params := rfl
@[simp] theorem respond_env (v : Byte) : (s.respond v).env = s.env := rfl

/-! ### `noResponse` -/

@[simp] theorem noResponse_keys : (s.noResponse).keys = s.keys := rfl
@[simp] theorem noResponse_count : (s.noResponse).count = s.count := rfl
@[simp] theorem noResponse_armed : (s.noResponse).armed = s.armed := rfl
@[simp] theorem noResponse_phase : (s.noResponse).phase = s.phase := rfl
@[simp] theorem noResponse_cursor : (s.noResponse).cursor = s.cursor := rfl
@[simp] theorem noResponse_pendingNext : (s.noResponse).pendingNext = s.pendingNext := rfl
@[simp] theorem noResponse_pendingEvt : (s.noResponse).pendingEvt = s.pendingEvt := rfl
@[simp] theorem noResponse_faulted : (s.noResponse).faulted = s.faulted := rfl
@[simp] theorem noResponse_faultCode : (s.noResponse).faultCode = s.faultCode := rfl
@[simp] theorem noResponse_port : (s.noResponse).port = s.port := rfl
@[simp] theorem noResponse_response : (s.noResponse).response = none := rfl
@[simp] theorem noResponse_params : (s.noResponse).params = s.params := rfl
@[simp] theorem noResponse_env : (s.noResponse).env = s.env := rfl

/-! ### `writeSlot` -/

@[simp] theorem writeSlot_keys (i : Byte) (r : KeyRecord) : (s.writeSlot i r).keys = Registry.write s.keys i.toNat (.record r) := rfl
@[simp] theorem writeSlot_count (i : Byte) (r : KeyRecord) : (s.writeSlot i r).count = s.count := rfl
@[simp] theorem writeSlot_armed (i : Byte) (r : KeyRecord) : (s.writeSlot i r).armed = s.armed := rfl
@[simp] theorem writeSlot_phase (i : Byte) (r : KeyRecord) : (s.writeSlot i r).phase = s.phase := rfl
@[simp] theorem writeSlot_cursor (i : Byte) (r : KeyRecord) : (s.writeSlot i r).cursor = s.cursor := rfl
@[simp] theorem writeSlot_pendingNext (i : Byte) (r : KeyRecord) : (s.writeSlot i r).pendingNext = s.pendingNext := rfl
@[simp] theorem writeSlot_pendingEvt (i : Byte) (r : KeyRecord) : (s.writeSlot i r).pendingEvt = s.pendingEvt := rfl
@[simp] theorem writeSlot_faulted (i : Byte) (r : KeyRecord) : (s.writeSlot i r).faulted = s.faulted := rfl
@[simp] theorem writeSlot_faultCode (i : Byte) (r : KeyRecord) : (s.writeSlot i r).faultCode = s.faultCode := rfl
@[simp] theorem writeSlot_port (i : Byte) (r : KeyRecord) : (s.writeSlot i r).port = s.port := rfl
@[simp] theorem writeSlot_response (i : Byte) (r : KeyRecord) : (s.writeSlot i r).response = s.response := rfl
@[simp] theorem writeSlot_params (i : Byte) (r : KeyRecord) : (s.writeSlot i r).params = s.params := rfl
@[simp] theorem writeSlot_env (i : Byte) (r : KeyRecord) : (s.writeSlot i r).env = s.env := rfl

/-! ### `writeState` -/

@[simp] theorem writeState_keys (i : Byte) (st : KeyState) :
    (s.writeState i st).keys = Registry.write s.keys i.toNat (Slot.withState (Registry.find s.keys i.toNat) st) := rfl
@[simp] theorem writeState_count (i : Byte) (st : KeyState) : (s.writeState i st).count = s.count := rfl
@[simp] theorem writeState_armed (i : Byte) (st : KeyState) : (s.writeState i st).armed = s.armed := rfl
@[simp] theorem writeState_phase (i : Byte) (st : KeyState) : (s.writeState i st).phase = s.phase := rfl
@[simp] theorem writeState_cursor (i : Byte) (st : KeyState) : (s.writeState i st).cursor = s.cursor := rfl
@[simp] theorem writeState_pendingNext (i : Byte) (st : KeyState) : (s.writeState i st).pendingNext = s.pendingNext := rfl
@[simp] theorem writeState_pendingEvt (i : Byte) (st : KeyState) : (s.writeState i st).pendingEvt = s.pendingEvt := rfl
@[simp] theorem writeState_faulted (i : Byte) (st : KeyState) : (s.writeState i st).faulted = s.faulted := rfl
@[simp] theorem writeState_faultCode (i : Byte) (st : KeyState) : (s.writeState i st).faultCode = s.faultCode := rfl
@[simp] theorem writeState_port (i : Byte) (st : KeyState) : (s.writeState i st).port = s.port := rfl
@[simp] theorem writeState_response (i : Byte) (st : KeyState) : (s.writeState i st).response = s.response := rfl
@[simp] theorem writeState_params (i : Byte) (st : KeyState) : (s.writeState i st).params = s.params := rfl
@[simp] theorem writeState_env (i : Byte) (st : KeyState) : (s.writeState i st).env = s.env := rfl

/-! ### `emitEvent` -/

@[simp] theorem emitEvent_keys (k : EventKind) (h : CbRef) : (s.emitEvent k h).keys = s.keys := rfl
@[simp] theorem emitEvent_count (k : EventKind) (h : CbRef) : (s.emitEvent k h).count = s.count := rfl
@[simp] theorem emitEvent_armed (k : EventKind) (h : CbRef) : (s.emitEvent k h).armed = s.armed := rfl
@[simp] theorem emitEvent_phase (k : EventKind) (h : CbRef) : (s.emitEvent k h).phase = .waitCb := rfl
@[simp] theorem emitEvent_cursor (k : EventKind) (h : CbRef) : (s.emitEvent k h).cursor = s.cursor := rfl
@[simp] theorem emitEvent_pendingNext (k : EventKind) (h : CbRef) : (s.emitEvent k h).pendingNext = s.pendingNext := rfl
@[simp] theorem emitEvent_pendingEvt (k : EventKind) (h : CbRef) : (s.emitEvent k h).pendingEvt = some { kind := k, key := s.cursor, handle := h } := rfl
@[simp] theorem emitEvent_faulted (k : EventKind) (h : CbRef) : (s.emitEvent k h).faulted = s.faulted := rfl
@[simp] theorem emitEvent_faultCode (k : EventKind) (h : CbRef) : (s.emitEvent k h).faultCode = s.faultCode := rfl
@[simp] theorem emitEvent_port (k : EventKind) (h : CbRef) : (s.emitEvent k h).port = s.port := rfl
@[simp] theorem emitEvent_response (k : EventKind) (h : CbRef) : (s.emitEvent k h).response = s.response := rfl
@[simp] theorem emitEvent_params (k : EventKind) (h : CbRef) : (s.emitEvent k h).params = s.params := rfl
@[simp] theorem emitEvent_env (k : EventKind) (h : CbRef) : (s.emitEvent k h).env = s.env := rfl

/-! ### `withPort` -/

@[simp] theorem withPort_keys (a : Issuer) (c : Command) : (s.withPort a c).keys = s.keys := rfl
@[simp] theorem withPort_count (a : Issuer) (c : Command) : (s.withPort a c).count = s.count := rfl
@[simp] theorem withPort_armed (a : Issuer) (c : Command) : (s.withPort a c).armed = s.armed := rfl
@[simp] theorem withPort_phase (a : Issuer) (c : Command) : (s.withPort a c).phase = s.phase := rfl
@[simp] theorem withPort_cursor (a : Issuer) (c : Command) : (s.withPort a c).cursor = s.cursor := rfl
@[simp] theorem withPort_pendingNext (a : Issuer) (c : Command) : (s.withPort a c).pendingNext = s.pendingNext := rfl
@[simp] theorem withPort_pendingEvt (a : Issuer) (c : Command) : (s.withPort a c).pendingEvt = s.pendingEvt := rfl
@[simp] theorem withPort_faulted (a : Issuer) (c : Command) : (s.withPort a c).faulted = s.faulted := rfl
@[simp] theorem withPort_faultCode (a : Issuer) (c : Command) : (s.withPort a c).faultCode = s.faultCode := rfl
@[simp] theorem withPort_port (a : Issuer) (c : Command) : (s.withPort a c).port = { agent := a, cmd := c } := rfl
@[simp] theorem withPort_response (a : Issuer) (c : Command) : (s.withPort a c).response = s.response := rfl
@[simp] theorem withPort_params (a : Issuer) (c : Command) : (s.withPort a c).params = s.params := rfl
@[simp] theorem withPort_env (a : Issuer) (c : Command) : (s.withPort a c).env = s.env := rfl

/-! ### `takeTurn` -/

@[simp] theorem takeTurn_keys : (s.takeTurn).keys = s.keys := rfl
@[simp] theorem takeTurn_count : (s.takeTurn).count = s.count := rfl
@[simp] theorem takeTurn_armed : (s.takeTurn).armed = s.armed := rfl
@[simp] theorem takeTurn_phase : (s.takeTurn).phase = s.phase := rfl
@[simp] theorem takeTurn_cursor : (s.takeTurn).cursor = s.cursor := rfl
@[simp] theorem takeTurn_pendingNext : (s.takeTurn).pendingNext = s.pendingNext := rfl
@[simp] theorem takeTurn_pendingEvt : (s.takeTurn).pendingEvt = s.pendingEvt := rfl
@[simp] theorem takeTurn_faulted : (s.takeTurn).faulted = s.faulted := rfl
@[simp] theorem takeTurn_faultCode : (s.takeTurn).faultCode = s.faultCode := rfl
@[simp] theorem takeTurn_port : (s.takeTurn).port = s.port := rfl
@[simp] theorem takeTurn_response : (s.takeTurn).response = s.response := rfl
@[simp] theorem takeTurn_params : (s.takeTurn).params = s.params := rfl
@[simp] theorem takeTurn_env : (s.takeTurn).env = { s.env with sched := s.env.sched.tail, turnCount := s.env.turnCount + 1 } := rfl

/-! ### `takeDraw` -/

@[simp] theorem takeDraw_keys (p : PinRef) : (s.takeDraw p).keys = s.keys := rfl
@[simp] theorem takeDraw_count (p : PinRef) : (s.takeDraw p).count = s.count := rfl
@[simp] theorem takeDraw_armed (p : PinRef) : (s.takeDraw p).armed = s.armed := rfl
@[simp] theorem takeDraw_phase (p : PinRef) : (s.takeDraw p).phase = s.phase := rfl
@[simp] theorem takeDraw_cursor (p : PinRef) : (s.takeDraw p).cursor = s.cursor := rfl
@[simp] theorem takeDraw_pendingNext (p : PinRef) : (s.takeDraw p).pendingNext = s.pendingNext := rfl
@[simp] theorem takeDraw_pendingEvt (p : PinRef) : (s.takeDraw p).pendingEvt = s.pendingEvt := rfl
@[simp] theorem takeDraw_faulted (p : PinRef) : (s.takeDraw p).faulted = s.faulted := rfl
@[simp] theorem takeDraw_faultCode (p : PinRef) : (s.takeDraw p).faultCode = s.faultCode := rfl
@[simp] theorem takeDraw_port (p : PinRef) : (s.takeDraw p).port = s.port := rfl
@[simp] theorem takeDraw_response (p : PinRef) : (s.takeDraw p).response = s.response := rfl
@[simp] theorem takeDraw_params (p : PinRef) : (s.takeDraw p).params = s.params := rfl
@[simp] theorem takeDraw_env (p : PinRef) : (s.takeDraw p).env = { s.env with draws := s.env.draws.tail, drawCount := s.env.drawCount + 1, pinAsked := some p } := rfl

/-! ### `takeHostWord` -/

@[simp] theorem takeHostWord_keys : (s.takeHostWord).keys = s.keys := rfl
@[simp] theorem takeHostWord_count : (s.takeHostWord).count = s.count := rfl
@[simp] theorem takeHostWord_armed : (s.takeHostWord).armed = s.armed := rfl
@[simp] theorem takeHostWord_phase : (s.takeHostWord).phase = s.phase := rfl
@[simp] theorem takeHostWord_cursor : (s.takeHostWord).cursor = s.cursor := rfl
@[simp] theorem takeHostWord_pendingNext : (s.takeHostWord).pendingNext = s.pendingNext := rfl
@[simp] theorem takeHostWord_pendingEvt : (s.takeHostWord).pendingEvt = s.pendingEvt := rfl
@[simp] theorem takeHostWord_faulted : (s.takeHostWord).faulted = s.faulted := rfl
@[simp] theorem takeHostWord_faultCode : (s.takeHostWord).faultCode = s.faultCode := rfl
@[simp] theorem takeHostWord_port : (s.takeHostWord).port = s.port := rfl
@[simp] theorem takeHostWord_response : (s.takeHostWord).response = s.response := rfl
@[simp] theorem takeHostWord_params : (s.takeHostWord).params = s.params := rfl
@[simp] theorem takeHostWord_env : (s.takeHostWord).env = { s.env with hostProg := s.env.hostProg.tail } := rfl

/-! ### `takeCbWord` -/

@[simp] theorem takeCbWord_keys : (s.takeCbWord).keys = s.keys := rfl
@[simp] theorem takeCbWord_count : (s.takeCbWord).count = s.count := rfl
@[simp] theorem takeCbWord_armed : (s.takeCbWord).armed = s.armed := rfl
@[simp] theorem takeCbWord_phase : (s.takeCbWord).phase = s.phase := rfl
@[simp] theorem takeCbWord_cursor : (s.takeCbWord).cursor = s.cursor := rfl
@[simp] theorem takeCbWord_pendingNext : (s.takeCbWord).pendingNext = s.pendingNext := rfl
@[simp] theorem takeCbWord_pendingEvt : (s.takeCbWord).pendingEvt = s.pendingEvt := rfl
@[simp] theorem takeCbWord_faulted : (s.takeCbWord).faulted = s.faulted := rfl
@[simp] theorem takeCbWord_faultCode : (s.takeCbWord).faultCode = s.faultCode := rfl
@[simp] theorem takeCbWord_port : (s.takeCbWord).port = s.port := rfl
@[simp] theorem takeCbWord_response : (s.takeCbWord).response = s.response := rfl
@[simp] theorem takeCbWord_params : (s.takeCbWord).params = s.params := rfl
@[simp] theorem takeCbWord_env : (s.takeCbWord).env = { s.env with cbProg := s.env.cbProg.tail } := rfl

/-! ### `raiseFault`, `readNoValue` and `advance`, whose value depends on the state -/

@[simp] theorem raiseFault_keys (c : FaultCause) : (s.raiseFault c).keys = s.keys := by
  unfold State.raiseFault; split <;> rfl
@[simp] theorem raiseFault_count (c : FaultCause) : (s.raiseFault c).count = s.count := by
  unfold State.raiseFault; split <;> rfl
@[simp] theorem raiseFault_armed (c : FaultCause) : (s.raiseFault c).armed = s.armed := by
  unfold State.raiseFault; split <;> rfl
@[simp] theorem raiseFault_phase (c : FaultCause) : (s.raiseFault c).phase = s.phase := by
  unfold State.raiseFault; split <;> rfl
@[simp] theorem raiseFault_cursor (c : FaultCause) : (s.raiseFault c).cursor = s.cursor := by
  unfold State.raiseFault; split <;> rfl
@[simp] theorem raiseFault_pendingNext (c : FaultCause) : (s.raiseFault c).pendingNext = s.pendingNext := by
  unfold State.raiseFault; split <;> rfl
@[simp] theorem raiseFault_pendingEvt (c : FaultCause) : (s.raiseFault c).pendingEvt = s.pendingEvt := by
  unfold State.raiseFault; split <;> rfl
@[simp] theorem raiseFault_port (c : FaultCause) : (s.raiseFault c).port = s.port := by
  unfold State.raiseFault; split <;> rfl
@[simp] theorem raiseFault_params (c : FaultCause) : (s.raiseFault c).params = s.params := by
  unfold State.raiseFault; split <;> rfl
@[simp] theorem raiseFault_env (c : FaultCause) : (s.raiseFault c).env = s.env := by
  unfold State.raiseFault; split <;> rfl
@[simp] theorem raiseFault_faulted (c : FaultCause) : (s.raiseFault c).faulted = true := by
  unfold State.raiseFault; split <;> simp_all
@[simp] theorem raiseFault_response (c : FaultCause) : (s.raiseFault c).response = none := by
  unfold State.raiseFault; split <;> rfl
@[simp] theorem raiseFault_faultCode (c : FaultCause) :
    (s.raiseFault c).faultCode = if s.faulted then s.faultCode else c.code := by
  unfold State.raiseFault; split <;> rfl

/-! ### `readNoValue` -/

@[simp] theorem readNoValue_keys : s.readNoValue.keys = s.keys := raiseFault_keys s _
@[simp] theorem readNoValue_count : s.readNoValue.count = s.count := raiseFault_count s _
@[simp] theorem readNoValue_armed : s.readNoValue.armed = s.armed := raiseFault_armed s _
@[simp] theorem readNoValue_phase : s.readNoValue.phase = s.phase := raiseFault_phase s _
@[simp] theorem readNoValue_cursor : s.readNoValue.cursor = s.cursor := raiseFault_cursor s _
@[simp] theorem readNoValue_pendingNext : s.readNoValue.pendingNext = s.pendingNext := raiseFault_pendingNext s _
@[simp] theorem readNoValue_pendingEvt : s.readNoValue.pendingEvt = s.pendingEvt := raiseFault_pendingEvt s _
@[simp] theorem readNoValue_port : s.readNoValue.port = s.port := raiseFault_port s _
@[simp] theorem readNoValue_params : s.readNoValue.params = s.params := raiseFault_params s _
@[simp] theorem readNoValue_env : s.readNoValue.env = s.env := raiseFault_env s _
@[simp] theorem readNoValue_faulted : s.readNoValue.faulted = true := raiseFault_faulted s _
@[simp] theorem readNoValue_response : s.readNoValue.response = none := raiseFault_response s _

@[simp] theorem advance_keys : s.advance.keys = s.keys := by
  unfold State.advance; split <;> rfl
@[simp] theorem advance_count : s.advance.count = s.count := by
  unfold State.advance; split <;> rfl
@[simp] theorem advance_armed : s.advance.armed = s.armed := by
  unfold State.advance; split <;> rfl
@[simp] theorem advance_pendingNext : s.advance.pendingNext = s.pendingNext := by
  unfold State.advance; split <;> rfl
@[simp] theorem advance_pendingEvt : s.advance.pendingEvt = s.pendingEvt := by
  unfold State.advance; split <;> rfl
@[simp] theorem advance_faulted : s.advance.faulted = s.faulted := by
  unfold State.advance; split <;> rfl
@[simp] theorem advance_faultCode : s.advance.faultCode = s.faultCode := by
  unfold State.advance; split <;> rfl
@[simp] theorem advance_port : s.advance.port = s.port := by
  unfold State.advance; split <;> rfl
@[simp] theorem advance_response : s.advance.response = s.response := by
  unfold State.advance; split <;> rfl
@[simp] theorem advance_params : s.advance.params = s.params := by
  unfold State.advance; split <;> rfl
@[simp] theorem advance_env : s.advance.env = s.env := by
  unfold State.advance; split <;> rfl

end Sys2Proof.Machine
end

