-- ==== Sys2Proof/Laws/Registry.lean ====
section
/-! SUPPORT. The laws of the register file: a read after a write, and that every write keeps the canonical form. -/

namespace Sys2Proof.Machine

@[simp] theorem Registry.find_nil (i : Nat) : Registry.find [] i = none := rfl
@[simp] theorem Registry.read_nil (i : Nat) : Registry.read [] i = none := rfl
@[simp] theorem Slot.record?_record (r : KeyRecord) : (Slot.record r).record? = some r := rfl
@[simp] theorem Slot.record?_stateOnly (st : KeyState) : (Slot.stateOnly st).record? = none := rfl
@[simp] theorem Slot.withState_record (r : KeyRecord) (st : KeyState) :
    Slot.withState (some (.record r)) st = .record { r with state := st } := rfl
@[simp] theorem Slot.withState_none (st : KeyState) : Slot.withState none st = .stateOnly st := rfl
@[simp] theorem Slot.withState_stateOnly (st' st : KeyState) :
    Slot.withState (some (.stateOnly st')) st = .stateOnly st := rfl

theorem Registry.find_write_ne (f : Registry) (i j : Nat) (v : Slot) (h : j ≠ i) :
    Registry.find (Registry.write f i v) j = Registry.find f j := by
  induction f with
  | nil => simp [Registry.write, Registry.find, h]
  | cons p rest ih =>
    obtain ⟨k, w⟩ := p
    unfold Registry.write
    split
    · simp [Registry.find, h]
    · split
      · rename_i _ heq
        subst heq
        simp [Registry.find, h]
      · simp only [Registry.find, ih]

@[simp] theorem Registry.find_write_self (f : Registry) (i : Nat) (v : Slot) :
    Registry.find (Registry.write f i v) i = some v := by
  induction f with
  | nil => simp [Registry.write, Registry.find]
  | cons p rest ih =>
    obtain ⟨j, k⟩ := p
    unfold Registry.write
    split
    · simp [Registry.find]
    · split
      · simp [Registry.find]
      · rename_i _ hne
        simpa [Registry.find, hne] using ih

/-- The two laws in one: what any slot holds after a write. -/
theorem Registry.find_write (f : Registry) (i j : Nat) (v : Slot) :
    Registry.find (Registry.write f i v) j = if j = i then some v else Registry.find f j := by
  split
  · rename_i h
    subst h
    exact Registry.find_write_self f j v
  · rename_i h
    exact Registry.find_write_ne f i j v h

/-- A slot reads as a record exactly where it holds a whole one. -/
theorem Registry.read_eq_some (f : Registry) (i : Nat) (r : KeyRecord) :
    Registry.read f i = some r ↔ Registry.find f i = some (.record r) := by
  unfold Registry.read
  cases h : Registry.find f i with
  | none => simp
  | some v => cases v <;> simp

/-- Slots that hold the same read the same. -/
theorem Registry.read_congr (f g : Registry) (i : Nat) (h : Registry.find g i = Registry.find f i) :
    Registry.read g i = Registry.read f i := by
  simp [Registry.read, h]

/-- What any slot reads as after a write. -/
theorem Registry.read_write (f : Registry) (i j : Nat) (v : Slot) :
    Registry.read (Registry.write f i v) j = if j = i then v.record? else Registry.read f j := by
  unfold Registry.read
  rw [Registry.find_write]
  split <;> simp

@[simp] theorem Registry.read_write_self (f : Registry) (i : Nat) (v : Slot) :
    Registry.read (Registry.write f i v) i = v.record? := by
  simp [Registry.read_write]

theorem Registry.read_write_ne (f : Registry) (i j : Nat) (v : Slot) (h : j ≠ i) :
    Registry.read (Registry.write f i v) j = Registry.read f j := by
  simp [Registry.read_write, h]

/-- A write lists no index but its own and those listed before. -/
theorem Registry.mem_write (f : Registry) (i : Nat) (v : Slot) (p : Nat × Slot)
    (h : p ∈ Registry.write f i v) : p = (i, v) ∨ p ∈ f := by
  induction f with
  | nil => simpa [Registry.write] using h
  | cons q rest ih =>
    obtain ⟨j, k⟩ := q
    unfold Registry.write at h
    split at h
    · simpa using h
    · split at h
      · rcases List.mem_cons.mp h with h | h
        · exact .inl h
        · exact .inr (List.mem_cons_of_mem _ h)
      · rcases List.mem_cons.mp h with h | h
        · exact .inr (h ▸ List.mem_cons_self)
        · exact (ih h).imp_right (List.mem_cons_of_mem _)

/-- The register file's canonical form is kept by a write; it is the only operation that changes the file. -/
theorem Registry.wf_write (f : Registry) (i : Nat) (v : Slot) (h : Registry.wf f = true) :
    Registry.wf (Registry.write f i v) = true := by
  induction f with
  | nil => simp [Registry.write, Registry.wf]
  | cons p rest ih =>
    obtain ⟨j, k⟩ := p
    simp only [Registry.wf, Bool.and_eq_true, List.all_eq_true, decide_eq_true_eq] at h
    unfold Registry.write
    split
    · rename_i hij
      simp only [Registry.wf, Bool.and_eq_true, List.all_eq_true, decide_eq_true_eq, List.mem_cons]
      refine ⟨?_, h⟩
      rintro q (rfl | hq)
      · exact hij
      · exact hij.trans (h.1 q hq)
    · split
      · rename_i _ hij
        subst hij
        simp only [Registry.wf, Bool.and_eq_true, List.all_eq_true, decide_eq_true_eq]
        exact h
      · rename_i hlt hne
        simp only [Registry.wf, Bool.and_eq_true, List.all_eq_true, decide_eq_true_eq]
        refine ⟨?_, ih h.2⟩
        intro q hq
        rcases Registry.mem_write rest i v q hq with rfl | hq
        · simp only; omega
        · exact h.1 q hq

/-- The register file of the reset state is in canonical form. -/
theorem reset_registry_wf : Registry.wf State.reset.keys = true := rfl

@[simp] theorem slot_writeSlot_self (s : State) (i : Byte) (r : KeyRecord) :
    (s.writeSlot i r).slot i = some r := by
  simp [State.slot, State.writeSlot]

theorem read_writeSlot (s : State) (i : Byte) (r : KeyRecord) (j : Nat) :
    Registry.read (s.writeSlot i r).keys j = if j = i.toNat then some r else Registry.read s.keys j :=
  Registry.read_write _ _ _ _

/-- Writing STATE of a slot that holds a record writes the record with that STATE. -/
theorem writeState_of_slot (s : State) (i : Byte) (r : KeyRecord) (st : KeyState) (h : s.slot i = some r) :
    s.writeState i st = s.writeSlot i { r with state := st } := by
  simp [State.writeState, State.writeSlot, (Registry.read_eq_some _ _ _).mp h]

/-- Two states with one register file hold the same in every slot. -/
theorem slot_congr (s t : State) (h : t.keys = s.keys) (i : Byte) : t.slot i = s.slot i := by
  simp [State.slot, h]

/-- A write, seen through a change made to every record. -/
theorem mapRecord_write (f : Registry) (i : Nat) (v : Slot) (g : KeyRecord → KeyRecord) :
    (Registry.write f i v).map (fun p => (p.1, p.2.mapRecord g)) =
      Registry.write (f.map fun p => (p.1, p.2.mapRecord g)) i (v.mapRecord g) := by
  induction f with
  | nil => rfl
  | cons p rest ih =>
    obtain ⟨j, k⟩ := p
    simp only [Registry.write, List.map_cons]
    split
    · rfl
    · split
      · rfl
      · simpa using ih

/-- What a slot holds, seen through a change made to every record. -/
theorem find_mapRecord (f : Registry) (i : Nat) (g : KeyRecord → KeyRecord) :
    Registry.find (f.map fun p => (p.1, p.2.mapRecord g)) i = (Registry.find f i).map (Slot.mapRecord · g) := by
  induction f with
  | nil => rfl
  | cons p rest ih =>
    obtain ⟨j, k⟩ := p
    simp only [Registry.find, List.map_cons]
    split <;> simp [ih]

/-- A read, seen through a change made to every record. -/
theorem read_mapRecord (f : Registry) (i : Nat) (g : KeyRecord → KeyRecord) :
    Registry.read (f.map fun p => (p.1, p.2.mapRecord g)) i = (Registry.read f i).map g := by
  unfold Registry.read
  rw [find_mapRecord]
  cases Registry.find f i with
  | none => rfl
  | some v => cases v <;> rfl

end Sys2Proof.Machine
end

