-- ==== Sys2Proof/Laws/Ops.lean ====
section
/-! SUPPORT. One lemma per shared operation: everything it can do. Provers cite these instead of unfolding. -/

namespace Sys2Proof.Machine

/-- The two ways the sequencer goes on (R206). -/
theorem advance_cases (s : State) :
    (s.cursor.toNat + 1 < s.count.toNat ∧ s.advance = { s with cursor := s.cursor + 1#8, phase := .run }) ∨
    (s.count.toNat ≤ s.cursor.toNat + 1 ∧ s.advance = { s with phase := .idle }) := by
  unfold State.advance
  split
  · exact .inl ⟨‹_›, rfl⟩
  · exact .inr ⟨by omega, rfl⟩

/-- The cursor does not wrap where the sequencer increments it (R200). -/
theorem cursor_succ_toNat (s : State) (h : s.cursor.toNat + 1 < s.count.toNat) :
    (s.cursor + 1#8).toNat = s.cursor.toNat + 1 := by
  have := s.count.isLt
  simp only [BitVec.toNat_add, BitVec.toNat_ofNat]
  omega

/-- The sequencer's advance, as the claims state it (R206): of any state with the same cursor and count. -/
theorem advance_advanced (s t : State) (hcur : t.cursor = s.cursor) (hcount : t.count = s.count) :
    Advanced s t.advance := by
  unfold Advanced
  rcases advance_cases t with ⟨hlt, h⟩ | ⟨hge, h⟩
  · have hsucc := cursor_succ_toNat t hlt
    rw [hcur, hcount] at hlt
    rw [if_pos hlt, h]
    exact ⟨rfl, hsucc.trans (by rw [hcur])⟩
  · rw [hcur, hcount] at hge
    rw [if_neg (by omega), h]
    exact ⟨rfl, hcur⟩

/-- Fault recording, as the claims state it (R232). -/
theorem raiseFault_raised (s : State) (c : FaultCause) : FaultRaised s (s.raiseFault c) c.code := by
  unfold FaultRaised State.raiseFault
  cases s with
  | mk keys count armed phase cursor pendingNext pendingEvt faulted => cases faulted <;> rfl

/-- A commit writes one key, at the cursor. -/
theorem commit_keyWritten (s : State) (r : KeyRecord) (nxt : KeyState) :
    KeyWritten s (s.commit r nxt) s.cursor { r with state := nxt } := by
  refine ⟨?_, fun j hj => ?_⟩
  · simp [State.commit, State.slot]
  · simp [State.commit, Registry.find_write, hj]

/-- A commit changes the keys, the cursor and the phase, and nothing else. -/
theorem commit_frame (s : State) (r : KeyRecord) (nxt : KeyState) :
    s.commit r nxt = { s with
      keys := (s.commit r nxt).keys, cursor := (s.commit r nxt).cursor, phase := (s.commit r nxt).phase } := by
  unfold State.commit
  rcases advance_cases (s.writeSlot s.cursor { r with state := nxt }) with ⟨_, h⟩ | ⟨_, h⟩ <;> rw [h] <;> rfl

/-- The return from a callback of a key that holds a record commits PENDING_NEXT to it (R198). -/
theorem returnFromCallback_of_slot (s : State) (r : KeyRecord) (h : s.slot s.cursor = some r) :
    s.returnFromCallback = State.commit { s with pendingEvt := none, response := none } r s.pendingNext := by
  rw [State.returnFromCallback, writeState_of_slot s s.cursor r _ h]
  rfl

/-- The return from a callback changes the keys, the event, the response, the cursor and the phase, and nothing else. -/
theorem returnFromCallback_frame (s : State) :
    s.returnFromCallback = { s with
      keys := s.returnFromCallback.keys, cursor := s.returnFromCallback.cursor,
      phase := s.returnFromCallback.phase, pendingEvt := none, response := none } := by
  unfold State.returnFromCallback
  rcases advance_cases { s.writeState s.cursor s.pendingNext with pendingEvt := none, response := none }
    with ⟨_, h⟩ | ⟨_, h⟩ <;> rw [h] <;> rfl

/-- The return from a callback writes STATE of slot CURSOR, and no other slot (R38, R198). -/
theorem returnFromCallback_find (s : State) (j : Nat) :
    Registry.find s.returnFromCallback.keys j =
      if j = s.cursor.toNat then some (Slot.withState (Registry.find s.keys j) s.pendingNext)
      else Registry.find s.keys j := by
  simp only [State.returnFromCallback, advance_keys, writeState_keys, Registry.find_write]
  split
  · rename_i h
    rw [h]
  · rfl

/-- Where the record that an action leaves has a handle, the engine waits; else it commits (R157, R159). -/
theorem notify_cases (s : State) (kind : EventKind) (handle : Option CbRef) (r : KeyRecord) (nxt : KeyState) :
    (handle = none ∧ s.notify kind handle r nxt = s.commit r nxt) ∨
    (∃ h, handle = some h ∧ s.notify kind handle r nxt =
      State.emitEvent { s.writeSlot s.cursor r with pendingNext := nxt } kind h) := by
  cases handle with
  | none => exact .inl ⟨rfl, rfl⟩
  | some h => exact .inr ⟨h, rfl, rfl⟩

/-- The engine step on a ROM entry answers next in two ways: the entry is applied, or PIN holds no value (R12, R159,
R203). -/
theorem evalEntry_next (a : RomAddr) (lv : Level) (s t : State) :
    evalEntry a lv s = .next t ↔ s.engineEnabled = true ∧
      ((∃ r, s.slot s.cursor = some r ∧ t = s.applyEntry (romRead a) { r with lastSample := lv }) ∨
       (s.slot s.cursor = none ∧ t = s.readNoValue)) := by
  unfold evalEntry
  split
  · rename_i h
    split
    · rename_i r hr
      simp [h, hr, eq_comm]
    · rename_i hr
      simp [h, hr, eq_comm]
  · rename_i h
    simp [h]

/-- A read of a field without a value records a fault, of one of the five causes (R12, R233). -/
theorem readNoValue_raised (s : State) : ∃ c : FaultCause, FaultRaised s s.readNoValue c.code :=
  ⟨_, raiseFault_raised s _⟩

/-- Each cause has a code from 1 to 5 (R233). -/
theorem code_legal (c : FaultCause) : 1 ≤ c.code.toNat ∧ c.code.toNat ≤ 5 := by
  cases c <;> decide

/-- What ISPRESSED can do (R12, R188, R189). -/
theorem query_cases (s : State) (idx : Byte) :
    (∃ r, idx.toNat < s.count.toNat ∧ s.slot idx = some r ∧ s.query idx = s.respond (flagByte r.isPressed)) ∨
    (idx.toNat < s.count.toNat ∧ s.slot idx = none ∧ s.query idx = s.readNoValue) ∨
    (s.count.toNat ≤ idx.toNat ∧ s.query idx = s.respond 0x00#8) := by
  unfold State.query
  split
  · rename_i h
    split
    · rename_i r hr
      exact .inl ⟨r, h, hr, rfl⟩
    · rename_i hr
      exact .inr (.inl ⟨h, hr, rfl⟩)
  · exact .inr (.inr ⟨by omega, rfl⟩)

/-- What REGISTER does once the agent and the arming are checked (R182, R183). -/
theorem register_cases (s : State) :
    (s.count = s.params.cap ∧ s.register = { s with response := some 0xFF#8 }) ∨
    (s.count ≠ s.params.cap ∧ s.register = { s with
      keys := Registry.write s.keys s.count.toNat (.record s.newRecord), count := s.count + 1#8, response := some s.count }) := by
  unfold State.register
  split
  · exact .inl ⟨‹_›, rfl⟩
  · exact .inr ⟨‹_›, rfl⟩

/-- What SCANTICK does once it is taken (R193, R194). -/
theorem startScan_cases (s : State) :
    (s.count = 0#8 ∧ s.startScan = { s with response := none }) ∨
    (s.count ≠ 0#8 ∧ s.startScan = { s with cursor := 0#8, phase := .run, response := none }) := by
  unfold State.startScan
  split
  · exact .inl ⟨‹_›, rfl⟩
  · exact .inr ⟨‹_›, rfl⟩

/-- What a ROM entry does, by its `hit` bit and its action (R115, R159). -/
theorem applyEntry_cases (s : State) (e : RomEntry) (r : KeyRecord) :
    (e.hit = false ∧ s.applyEntry e r = (s.writeSlot s.cursor r).advance) ∨
    (e.hit = true ∧ e.action = .none ∧ s.applyEntry e r = s.commit r e.next) ∨
    (e.hit = true ∧ e.action = .markPressed ∧ s.applyEntry e r = s.notify .press r.onPress r.setPressed e.next) ∨
    (e.hit = true ∧ e.action = .clearPressed ∧
      s.applyEntry e r = s.notify .release r.onRelease r.clearPressed e.next) := by
  unfold State.applyEntry
  cases hh : e.hit with
  | false => exact .inl ⟨rfl, rfl⟩
  | true => cases ha : e.action <;> simp

/-- What issuing a word comes to, by what it decodes to (R240). -/
theorem issue_cases (a : Issuer) (c : Command) (s : State) :
    (∃ i, decodeCmd c.word = .legal i ∧ issue a c s = exec i (s.withPort a c)) ∨
    (∃ why, decodeCmd c.word = .illegal why ∧
      issue a c s = .next ((s.withPort a c).raiseFault .illegalCommand)) := by
  unfold issue
  simp only [decode]
  cases h : decodeCmd c.word with
  | legal i => exact .inl ⟨i, rfl, rfl⟩
  | illegal why => exact .inr ⟨why, rfl, rfl⟩

/-! ### Enabling conditions: what each says, and that no bookkeeping of the world changes one -/

theorem hostEnabled_iff (s : State) : s.hostEnabled = true ↔
    s.faulted = false ∧ (s.phase = .idle ∨ s.params.hostDuringScan = .interleaved) := by
  simp [State.hostEnabled, State.busy]

theorem tickEnabled_iff (s : State) : s.tickEnabled = true ↔ s.armed = true ∧ s.phase = .idle ∧ s.faulted = false := by
  simp [State.tickEnabled, State.busy, and_assoc]

theorem engineEnabled_iff (s : State) : s.engineEnabled = true ↔ s.phase = .run ∧ s.faulted = false := by
  simp [State.engineEnabled]

theorem cbEnabled_iff (s : State) : s.cbEnabled = true ↔ s.phase = .waitCb ∧ s.faulted = false := by
  simp [State.cbEnabled]

@[simp] theorem hostEnabled_takeTurn (s : State) : (s.takeTurn).hostEnabled = s.hostEnabled := rfl
@[simp] theorem hostEnabled_takeDraw (s : State) (p : PinRef) : (s.takeDraw p).hostEnabled = s.hostEnabled := rfl
@[simp] theorem hostEnabled_takeHostWord (s : State) : (s.takeHostWord).hostEnabled = s.hostEnabled := rfl
@[simp] theorem hostEnabled_takeCbWord (s : State) : (s.takeCbWord).hostEnabled = s.hostEnabled := rfl
@[simp] theorem hostEnabled_withPort (s : State) (a : Issuer) (c : Command) : (s.withPort a c).hostEnabled = s.hostEnabled := rfl
@[simp] theorem tickEnabled_takeTurn (s : State) : (s.takeTurn).tickEnabled = s.tickEnabled := rfl
@[simp] theorem tickEnabled_takeDraw (s : State) (p : PinRef) : (s.takeDraw p).tickEnabled = s.tickEnabled := rfl
@[simp] theorem tickEnabled_takeHostWord (s : State) : (s.takeHostWord).tickEnabled = s.tickEnabled := rfl
@[simp] theorem tickEnabled_takeCbWord (s : State) : (s.takeCbWord).tickEnabled = s.tickEnabled := rfl
@[simp] theorem tickEnabled_withPort (s : State) (a : Issuer) (c : Command) : (s.withPort a c).tickEnabled = s.tickEnabled := rfl
@[simp] theorem engineEnabled_takeTurn (s : State) : (s.takeTurn).engineEnabled = s.engineEnabled := rfl
@[simp] theorem engineEnabled_takeDraw (s : State) (p : PinRef) : (s.takeDraw p).engineEnabled = s.engineEnabled := rfl
@[simp] theorem engineEnabled_takeHostWord (s : State) : (s.takeHostWord).engineEnabled = s.engineEnabled := rfl
@[simp] theorem engineEnabled_takeCbWord (s : State) : (s.takeCbWord).engineEnabled = s.engineEnabled := rfl
@[simp] theorem engineEnabled_withPort (s : State) (a : Issuer) (c : Command) : (s.withPort a c).engineEnabled = s.engineEnabled := rfl
@[simp] theorem cbEnabled_takeTurn (s : State) : (s.takeTurn).cbEnabled = s.cbEnabled := rfl
@[simp] theorem cbEnabled_takeDraw (s : State) (p : PinRef) : (s.takeDraw p).cbEnabled = s.cbEnabled := rfl
@[simp] theorem cbEnabled_takeHostWord (s : State) : (s.takeHostWord).cbEnabled = s.cbEnabled := rfl
@[simp] theorem cbEnabled_takeCbWord (s : State) : (s.takeCbWord).cbEnabled = s.cbEnabled := rfl
@[simp] theorem cbEnabled_withPort (s : State) (a : Issuer) (c : Command) : (s.withPort a c).cbEnabled = s.cbEnabled := rfl

end Sys2Proof.Machine
end

