-- ==== Sys2Proof/Laws/PerInstr.lean ====
section
/-! SUPPORT. A statement about every instruction as syntax, one lemma per constructor: its encoding lies in its row of
the opcode table, under the row's mask. -/

namespace Sys2Proof.Laws.MatchesRow

/-- The row of spec/opcode_table.json that a constructor stands for: how many bits, and its `match` and `mask`. -/
def row (i : Instr) : Nat × Nat × Nat :=
  match i with
  | .register => (16, 0x1000, 0xFFFF)
  | .scantick => (16, 0x2000, 0xFFFF)
  | .ispressed _ => (16, 0x3000, 0xFF00)
  | .arm => (16, 0x4000, 0xFFFF)
  | .cbdone => (16, 0x5000, 0xFFFF)
  | .tReleasedLow => (3, 0b000, 0b111)
  | .tReleasedHigh => (3, 0b001, 0b111)
  | .tPressShakeLow => (3, 0b010, 0b111)
  | .tPressShakeHigh => (3, 0b011, 0b111)
  | .tPressedLow => (3, 0b100, 0b111)
  | .tPressedHigh => (3, 0b101, 0b111)
  | .tReleaseShakeLow => (3, 0b110, 0b111)
  | .tReleaseShakeHigh => (3, 0b111, 0b111)

/-- The width and the bits of a code. -/
def codeBits (c : Code) : Nat × Nat :=
  match c with
  | .cmd w => (16, w.toNat)
  | .rom a => (3, a.toNat)

/-- The encoding has the row's width and, under the row's mask, its match. -/
def Statement (i : Instr) : Prop :=
  (codeBits (encode i)).1 = (row i).1 ∧ (codeBits (encode i)).2 &&& (row i).2.2 = (row i).2.1

theorem register : Statement .register := ⟨rfl, rfl⟩
theorem scantick : Statement .scantick := ⟨rfl, rfl⟩
theorem ispressed (idx : Byte) : Statement (.ispressed idx) := by
  refine ⟨rfl, ?_⟩
  have h : ((0x30#8 ++ idx) &&& 0xFF00#16 : BitVec 16) = 0x3000#16 := by
    revert idx; decide
  simpa [codeBits, encode, row] using congrArg BitVec.toNat h
theorem arm : Statement .arm := ⟨rfl, rfl⟩
theorem cbdone : Statement .cbdone := ⟨rfl, rfl⟩
theorem tReleasedLow : Statement .tReleasedLow := ⟨rfl, rfl⟩
theorem tReleasedHigh : Statement .tReleasedHigh := ⟨rfl, rfl⟩
theorem tPressShakeLow : Statement .tPressShakeLow := ⟨rfl, rfl⟩
theorem tPressShakeHigh : Statement .tPressShakeHigh := ⟨rfl, rfl⟩
theorem tPressedLow : Statement .tPressedLow := ⟨rfl, rfl⟩
theorem tPressedHigh : Statement .tPressedHigh := ⟨rfl, rfl⟩
theorem tReleaseShakeLow : Statement .tReleaseShakeLow := ⟨rfl, rfl⟩
theorem tReleaseShakeHigh : Statement .tReleaseShakeHigh := ⟨rfl, rfl⟩

end Sys2Proof.Laws.MatchesRow
end

