-- ==== Sys2Proof/Laws/Step.lean ====
section
/-! SUPPORT. What a step can do, said once: the turn passes, the block is reset, an agent issues a word, or the engine
evaluates a key. -/

namespace Sys2Proof.Machine

/-- The ways a step answers next, by whose turn it was. -/
theorem step_next_cases (s t : State) (h : step s = .next t) :
    t = s.takeTurn ∨
    (s.env.turnAt 0 = .reset ∧ t = s.takeTurn.resetBlock) ∨
    (∃ c rest, s.env.turnAt 0 = .host ∧ s.hostEnabled = true ∧ s.env.hostProg = c :: rest ∧
      issue .host c s.takeTurn.takeHostWord = .next t) ∨
    (s.env.turnAt 0 = .tick ∧ s.tickEnabled = true ∧
      exec .scantick (s.takeTurn.withPort .tick (bareWord 0x2000#16)) = .next t) ∨
    (∃ w rest, s.env.turnAt 0 = .cb ∧ s.cbEnabled = true ∧ s.env.cbProg = w :: rest ∧
      issue .cb (bareWord w) s.takeTurn.takeCbWord = .next t) ∨
    (∃ r, s.env.turnAt 0 = .engine ∧ s.engineEnabled = true ∧ s.slot s.cursor = some r ∧
      exec (decodeEntry (romAddr r.state (s.env.levelAt r.pin 0))) (s.takeTurn.takeDraw r.pin) = .next t) ∨
    (s.env.turnAt 0 = .engine ∧ s.engineEnabled = true ∧ s.slot s.cursor = none ∧ t = s.takeTurn.readNoValue) := by
  unfold step at h
  cases hturn : s.env.turnAt 0 <;> rw [hturn] at h <;> simp only [runTurn] at h
  · unfold hostTurn at h
    split at h
    · rename_i hen
      split at h
      · rename_i c rest hp
        exact .inr (.inr (.inl ⟨c, rest, rfl, hen, hp, h⟩))
      · exact .inl (Host.Outcome.next.inj h).symm
    · exact .inl (Host.Outcome.next.inj h).symm
  · unfold tickTurn at h
    split at h
    · rename_i hen
      exact .inr (.inr (.inr (.inl ⟨rfl, hen, h⟩)))
    · exact .inl (Host.Outcome.next.inj h).symm
  · unfold engineTurn at h
    split at h
    · rename_i hen
      unfold evalKey at h
      split at h
      · rename_i r hr
        exact .inr (.inr (.inr (.inr (.inr (.inl ⟨r, rfl, hen, hr, h⟩)))))
      · rename_i hr
        exact .inr (.inr (.inr (.inr (.inr (.inr ⟨rfl, hen, hr, (Host.Outcome.next.inj h).symm⟩)))))
    · exact .inl (Host.Outcome.next.inj h).symm
  · unfold cbTurn at h
    split at h
    · rename_i hen
      split at h
      · rename_i w rest hp
        exact .inr (.inr (.inr (.inr (.inl ⟨w, rest, rfl, hen, hp, h⟩))))
      · exact .inl (Host.Outcome.next.inj h).symm
    · exact .inl (Host.Outcome.next.inj h).symm
  · exact .inr (.inl ⟨rfl, (Host.Outcome.next.inj h).symm⟩)

/-- The oracle's answers after one draw are the later ones (R75). -/
theorem levelAt_takeDraw (s : State) (p q : PinRef) (k : Nat) :
    (s.takeDraw p).env.levelAt q k = s.env.levelAt q (k + 1) := by
  simp only [Env.levelAt, takeDraw_env, List.getElem?_tail]
  congr 2
  omega

/-- The turns after one is taken are the later ones. -/
theorem turnAt_takeTurn (s : State) (k : Nat) : s.takeTurn.env.turnAt k = s.env.turnAt (k + 1) := by
  simp only [Env.turnAt, takeTurn_env, List.getElem?_tail]
  congr 2
  omega

end Sys2Proof.Machine
end

