-- ==== Sys2Proof/Tests/Slice0.lean ====
section
/-! SUPPORT. The model's own tests: words written out from the spec's encodings, vectors of 95_test_vectors.md (the id
stands in each comment), one step each, and a witness for the hypotheses of every obligation that has some. -/

namespace Sys2Proof.Tests

open Sys2Proof Sys2Proof.Machine

/-- What a next state satisfies; false of a stop. -/
def nextIs (o : Host.Outcome State Fault Refusal) (p : State → Bool) : Bool :=
  match o with
  | .next t => p t
  | .fault _ | .refused _ => false

/-- A record of the vectors: `(STATE, IS_PRESSED)`, LAST_SAMPLE 0, with these handles. -/
def key (st : KeyState) (f : Bool) (p r : Option CbRef) : KeyRecord :=
  { pin := ⟨3⟩, lastSample := .low, state := st, isPressed := f, onPress := p, onRelease := r }

/-- The record triple of the vectors. -/
def triple (s : State) : Option (KeyState × Bool × Level) :=
  (s.slot 0#8).map (fun r => (r.state, r.isPressed, r.lastSample))

/-- The handles of the vectors. -/
def hP : CbRef := ⟨17⟩
def hR : CbRef := ⟨18⟩

/-- One key at index 0, armed, `CAP = 16`. -/
def one (ph : Phase) (r : KeyRecord) : State :=
  { State.reset with keys := [(0, .record r)], count := 1#8, armed := true, phase := ph }

/-- A callback wait for a press on key 0: `STATUS = 0x00006501` (T2). -/
def waitPress : State :=
  { one .waitCb (key .pressShake true (some hP) none) with
    pendingNext := .pressed, pendingEvt := some { kind := .press, key := 0#8, handle := hP } }

/-- A callback wait for a release on key 0: `STATUS = 0x0000C501` (T7). -/
def waitRelease : State :=
  { one .waitCb (key .releaseShake false none (some hR)) with
    pendingNext := .released, pendingEvt := some { kind := .release, key := 0#8, handle := hR } }

/-- The given turn next, with these words and levels in the world. -/
def world (s : State) (t : Turn) (h : List Command) (c : List CmdWord) (d : List Level) : State :=
  { s with env := { s.env with sched := [t], hostProg := h, cbProg := c, draws := d } }

/-- HOST issues the word next. -/
def host (s : State) (w : CmdWord) : State := world s .host [bareWord w] [] []

/-- CB issues the word next. -/
def cb (s : State) (w : CmdWord) : State := world s .cb [] [w] []

/-- ENGINE evaluates next, at this level. -/
def eng (s : State) (lv : Level) : State := world s .engine [] [] [lv]

/-! ### Decoding: every row, from the spec's encodings (R102 to R106, R116) -/

theorem test_decode_register : decodeTableWord 16 0b0001000000000000 = some .register := by decide
theorem test_decode_scantick : decodeTableWord 16 0b0010000000000000 = some .scantick := by decide
theorem test_decode_ispressed : decodeTableWord 16 0b0011000010100101 = some (.ispressed 0xA5#8) := by decide
theorem test_decode_arm : decodeTableWord 16 0b0100000000000000 = some .arm := by decide
theorem test_decode_cbdone : decodeTableWord 16 0b0101000000000000 = some .cbdone := by decide
theorem test_decode_rom : (List.range 8).map (decodeTableWord 8) =
    [some .tReleasedLow, some .tReleasedHigh, some .tPressShakeLow, some .tPressShakeHigh,
     some .tPressedLow, some .tPressedHigh, some .tReleaseShakeLow, some .tReleaseShakeHigh] := by decide
/-- F1 to F6. -/
theorem test_decode_illegal : [0x0000, 0x6000, 0xFFFF, 0x1001, 0x3100, 0x4080].map (decodeTableWord 16) =
    List.replicate 6 none := by decide
/-- The entry bits of R116. -/
theorem test_rom_bits : rom.map RomEntry.bits =
    [0b10100#5, 0b00000#5, 0b11001#5, 0b10000#5, 0b01000#5, 0b11100#5, 0b11000#5, 0b10010#5] := by decide

/-! ### Well-formedness refuses -/

theorem test_cap_zero_refused : Params.wellFormed { Params.reference with cap := 0#8 } = false := by decide
theorem test_wide_pin_refused : Command.wellFormed Params.reference ⟨0x1000#16, 256, 0, 0⟩ = false := by decide
theorem test_wide_press_refused : Command.wellFormed Params.reference ⟨0x1000#16, 0, 512, 0⟩ = false := by decide
theorem test_wide_release_refused : Command.wellFormed Params.reference ⟨0x1000#16, 0, 0, 512⟩ = false := by decide
theorem test_fitting_accepted : Command.wellFormed Params.reference ⟨0x1000#16, 255, 511, 511⟩ = true := by decide
theorem test_instr_accepted : Instr.wellFormed (.ispressed 255#8) = true := by decide

/-! ### One step each -/

/-- R1. -/
theorem test_register_first :
    nextIs (step (world State.reset .host [⟨0x1000#16, 9, 0x111, 0x112⟩] [] [])) (fun t =>
      t.status = 0x00000001#32 && t.response = some 0#8 &&
      t.slot 0#8 = some { pin := ⟨9⟩, lastSample := .low, state := .released, isPressed := false,
                          onPress := some hP, onRelease := some hR }) = true := by decide
/-- R6: fault code 2, not the sentinel. -/
theorem test_register_after_arm_when_full :
    nextIs (step (host { State.reset with count := 16#8, armed := true } 0x1000#16)) (fun t =>
      t.status = 0x02000910#32 && t.response = none) = true := by decide
/-- Q1. -/
theorem test_ispressed_live :
    nextIs (step (host (one .idle (key .pressed true none none)) 0x3000#16)) (fun t => t.response = some 1#8) = true := by
  decide
/-- Q4. -/
theorem test_ispressed_255 :
    nextIs (step (host (one .idle (key .pressed true none none)) 0x30FF#16)) (fun t => t.response = some 0#8) = true := by
  decide
/-- A1. -/
theorem test_arm : nextIs (step (host State.reset 0x4000#16)) (fun t => t.status = 0x00000100#32) = true := by decide
/-- F10. -/
theorem test_arm_from_callback :
    nextIs (step (cb waitPress 0x4000#16)) (fun t => t.status = 0x03006D01#32) = true := by decide
/-- S2, with `COUNT = 1`. -/
theorem test_scantick :
    nextIs (step (world (one .idle (key .released false none none)) .tick [] [] [])) (fun t =>
      t.status = 0x00000301#32) = true := by decide
/-- F8. -/
theorem test_scantick_from_host :
    nextIs (step (host State.reset 0x2000#16)) (fun t => t.status = 0x04000800#32) = true := by decide
/-- B1. -/
theorem test_cbdone :
    nextIs (step (cb waitPress 0x5000#16)) (fun t =>
      t.status = 0x00002101#32 && triple t = some (.pressed, true, .low)) = true := by decide
/-- B4, under INTERLEAVED. -/
theorem test_cbdone_from_host :
    nextIs (step (host { waitPress with params := { Params.reference with hostDuringScan := .interleaved } } 0x5000#16))
      (fun t => t.status = 0x05006D01#32 && triple t = some (.pressShake, true, .low)) = true := by decide
/-- T0. -/
theorem test_released_low :
    nextIs (step (eng (one .run (key .released false (some hP) none)) .low)) (fun t =>
      triple t = some (.pressShake, false, .low) && t.status = 0x00000101#32) = true := by decide
/-- T1. -/
theorem test_released_high :
    nextIs (step (eng (one .run (key .released false (some hP) none)) .high)) (fun t =>
      triple t = some (.released, false, .high) && t.status = 0x00000101#32) = true := by decide
/-- T2, with no callback, and T8: a release handle is never used for a press. -/
theorem test_press_shake_low :
    nextIs (step (eng (one .run (key .pressShake false none (some hR))) .low)) (fun t =>
      triple t = some (.pressed, true, .low) && t.status = 0x00000101#32) = true := by decide
/-- T2, the wait. -/
theorem test_press_shake_low_waits :
    nextIs (step (eng (one .run (key .pressShake false (some hP) none)) .low)) (fun t =>
      triple t = some (.pressShake, true, .low) && t.status = 0x00006501#32 &&
      t.pendingEvt = some { kind := .press, key := 0#8, handle := hP }) = true := by decide
/-- R36, R72: the pin that REGISTER stored is what the oracle is asked for. -/
theorem test_pin_asked :
    nextIs (step (eng (one .run (key .released false none none)) .low)) (fun t => t.env.pinAsked = some ⟨3⟩) = true := by
  decide
/-- T3. -/
theorem test_press_shake_high :
    nextIs (step (eng (one .run (key .pressShake false (some hP) none)) .high)) (fun t =>
      triple t = some (.released, false, .high)) = true := by decide
/-- T4. -/
theorem test_pressed_low :
    nextIs (step (eng (one .run (key .pressed true none none)) .low)) (fun t =>
      triple t = some (.pressed, true, .low)) = true := by decide
/-- T5. -/
theorem test_pressed_high :
    nextIs (step (eng (one .run (key .pressed true none (some hR))) .high)) (fun t =>
      triple t = some (.releaseShake, true, .high)) = true := by decide
/-- T6. -/
theorem test_release_shake_low :
    nextIs (step (eng (one .run (key .releaseShake true (some hP) (some hR))) .low)) (fun t =>
      triple t = some (.pressed, true, .low) && t.status = 0x00000101#32) = true := by decide
/-- T7, with no release callback, and T9. -/
theorem test_release_shake_high :
    nextIs (step (eng (one .run (key .releaseShake true (some hP) none)) .high)) (fun t =>
      triple t = some (.released, false, .high) && t.status = 0x00000101#32) = true := by decide
/-- T7, the wait. -/
theorem test_release_shake_high_waits :
    nextIs (step (eng (one .run (key .releaseShake true none (some hR))) .high)) (fun t =>
      triple t = some (.releaseShake, false, .high) && t.status = 0x0000C501#32 &&
      t.pendingEvt = some { kind := .release, key := 0#8, handle := hR }) = true := by decide
/-- F12: decode comes first. -/
theorem test_illegal_from_callback :
    nextIs (step (cb waitPress 0x5001#16)) (fun t => t.status = 0x01006D01#32) = true := by decide
/-- X1. -/
theorem test_reset_in_a_wait :
    nextIs (step (world waitPress .reset [] [] [])) (fun t => t.status = 0x00000000#32 && t.keys = []) = true := by decide

/-! ### Witnesses: states and operands that meet an obligation's hypotheses, clause by clause -/

/-- The command port under this agent's name. -/
def by' (a : Issuer) (s : State) : State := s.withPort a (bareWord 0#16)

/-- One key whose flag is its state's, in no callback wait: the invariant holds. -/
theorem one_inv (ph : Phase) (r : KeyRecord) (hp : ph ≠ .waitCb) (hr : r.isPressed = r.state.isDown) (p : Port)
    (e : Env) (v : Option Byte) : State.Inv { one ph r with port := p, env := e, response := v } := by
  have hcap : (1#8).toNat ≤ (16#8).toNat := by decide
  have hcur : (0#8).toNat < (1#8).toNat := by decide
  refine ⟨rfl, fun i => ?_, fun i hi => ?_, hcap, fun _ => ⟨rfl, hcur⟩, ?_, fun i q hq _ => ?_, fun e q he => ?_, ?_⟩
  · rcases Nat.eq_zero_or_pos i with rfl | hi
    · rfl
    · simp [one, Registry.read, Registry.find, Nat.pos_iff_ne_zero.mp hi]
  · have h1 : 1 ≤ i := hi
    simp [one, Registry.find, show i ≠ 0 by omega]
  · simp [one, hp, State.reset]
  · simp only [one, Registry.read_eq_some, Registry.find] at hq
    split at hq
    · cases hq; exact hr
    · cases hq
  · cases he
  · simp [one, State.reset]

/-- The invariant holds in the press wait. -/
theorem waitPress_inv (p : Port) (e : Env) : State.Inv { waitPress with port := p, env := e } := by
  have hcap : (1#8).toNat ≤ (16#8).toNat := by decide
  have hcur : (0#8).toNat < (1#8).toNat := by decide
  refine ⟨rfl, fun i => ?_, fun i hi => ?_, hcap, fun _ => ⟨rfl, hcur⟩, ?_, fun i q hq hn => ?_, fun e q he hq => ?_, ?_⟩
  · rcases Nat.eq_zero_or_pos i with rfl | hi
    · rfl
    · simp [waitPress, one, Registry.read, Registry.find, Nat.pos_iff_ne_zero.mp hi]
  · have h1 : 1 ≤ i := hi
    simp [waitPress, one, Registry.find, show i ≠ 0 by omega]
  · simp [waitPress, one]
  · simp only [waitPress, one, Registry.read_eq_some, Registry.find] at hq
    split at hq
    · rename_i h0
      exact absurd ⟨rfl, h0.symm⟩ hn
    · cases hq
  · cases he; cases hq
    exact ⟨rfl, .inl ⟨rfl, rfl, rfl, rfl, rfl⟩⟩
  · simp [waitPress, one, State.reset]

theorem witness_DecodeOfEncode : Instr.wellFormed (.ispressed 255#8) = true := by decide
theorem witness_LegalCodes : decode (.cmd 0x30FF#16) = .legal (.ispressed 255#8) := by decide
theorem witness_OperandPortFields : 255 < 2 ^ 8 ∧ 0 < 2 ^ 0 := by decide

theorem witness_Register_callback : (by' .cb waitPress).port.agent = .cb := by decide
theorem witness_Register_armed : ∃ s : State, s.port.agent = .host ∧ s.armed = true ∧ s.count = s.params.cap :=
  ⟨by' .host { State.reset with count := 16#8, armed := true }, by decide⟩
theorem witness_Register_full : ∃ s : State, s.port.agent = .host ∧ s.armed = false ∧ s.count = s.params.cap :=
  ⟨by' .host { State.reset with count := 16#8 }, by decide⟩
theorem witness_Register_last_free : ∃ s : State, s.port.agent = .host ∧ s.armed = false ∧
    s.count.toNat < s.params.cap.toNat ∧ s.params.cap.toNat = 255 ∧ s.count.toNat = 254 :=
  ⟨by' .host { State.reset with count := 254#8, params := { Params.reference with cap := 255#8 } }, by decide⟩
theorem witness_Ispressed_live : ∃ s : State, s.port.agent = .host ∧ (0#8).toNat < s.count.toNat ∧
    s.slot 0#8 = some (key .pressed true none none) :=
  ⟨by' .host (one .idle (key .pressed true none none)), by decide⟩
theorem witness_Ispressed_at_count : ∃ s : State, s.port.agent = .cb ∧ s.count.toNat ≤ (1#8).toNat ∧ s.count = 1#8 :=
  ⟨by' .cb waitPress, by decide⟩
theorem witness_CallbackReads : ∃ (s : State) (e : Event), s.Inv ∧ s.phase = .waitCb ∧ s.pendingEvt = some e ∧
    s.port.agent = .cb :=
  ⟨by' .cb waitPress, { kind := .press, key := 0#8, handle := hP }, waitPress_inv _ _, by decide⟩
theorem witness_Arm : (by' .host State.reset).port.agent = .host ∧ (by' .cb waitPress).port.agent = .cb := by decide
theorem witness_Scantick_starts : ∃ s : State, s.port.agent = .tick ∧ s.armed = true ∧ s.phase = .idle ∧
    s.faulted = false ∧ 0 < s.count.toNat :=
  ⟨by' .tick (one .idle (key .released false none none)), by decide⟩
theorem witness_Scantick_empty : ∃ s : State, s.port.agent = .tick ∧ s.armed = true ∧ s.phase = .idle ∧
    s.faulted = false ∧ s.count.toNat = 0 :=
  ⟨by' .tick { State.reset with armed := true }, by decide⟩
theorem witness_Cbdone : ∃ (s : State) (r : KeyRecord), s.port.agent = .cb ∧ s.phase = .waitCb ∧ s.faulted = false ∧
    s.slot s.cursor = some r :=
  ⟨by' .cb waitRelease, key .releaseShake false none (some hR), by decide⟩
theorem witness_Cbdone_no_record : ∃ s : State, s.port.agent = .cb ∧ s.phase = .waitCb ∧ s.faulted = false ∧
    s.slot s.cursor = none :=
  ⟨by' .cb { State.reset with phase := .waitCb }, by decide⟩
theorem witness_MustNotReenter : Instr.arm ∈ [Instr.register, Instr.arm, Instr.scantick] ∧
    (by' .cb waitPress).port.agent = .cb := by decide
theorem witness_ForegroundMisuse : (Instr.cbdone, 5#8) ∈ [(Instr.scantick, 4#8), (Instr.cbdone, 5#8)] ∧
    (by' .host waitPress).port.agent = .host := by decide
theorem witness_Forbidden_tick_command : (by' .tick State.reset).port.agent = .tick := by decide
theorem witness_Forbidden_tick : ∃ s : State, s.port.agent = .tick ∧ s.armed = true ∧ s.phase ≠ .idle :=
  ⟨by' .tick waitPress, by decide⟩
theorem witness_Forbidden_cb : ∃ s : State, s.port.agent = .cb ∧ s.phase ≠ .waitCb := ⟨by' .cb State.reset, by decide⟩
theorem witness_Forbidden_rom : State.reset.phase ≠ .run := by decide
theorem witness_ReadOfNoValue_rom : ∃ s : State, s.phase = .run ∧ s.faulted = false ∧ s.slot s.cursor = none :=
  ⟨{ State.reset with phase := .run }, by decide⟩
theorem witness_ReadOfNoValue_ispressed : ∃ s : State, s.port.agent ≠ .tick ∧ (0#8).toNat < s.count.toNat ∧
    s.slot 0#8 = none :=
  ⟨{ State.reset with count := 1#8 }, by decide⟩

/-- Every Key State has a state in which the ROM rows' hypotheses hold. -/
theorem witness_Transitions : ∀ st ∈ [KeyState.released, KeyState.pressShake, KeyState.pressed, KeyState.releaseShake],
    ∃ (s : State) (r : KeyRecord), s.phase = .run ∧ s.faulted = false ∧ s.slot s.cursor = some r ∧ r.state = st :=
  fun st _ => ⟨one .run (key st st.isDown none none), key st st.isDown none none, rfl, rfl, rfl, rfl⟩
theorem witness_PressShakeLow_with_handle : ∃ (s : State) (r : KeyRecord), s.phase = .run ∧ s.faulted = false ∧
    s.slot s.cursor = some r ∧ r.state = .pressShake ∧ r.onPress = some hP :=
  ⟨one .run (key .pressShake false (some hP) none), key .pressShake false (some hP) none, by decide⟩
theorem witness_PressShakeLow_without : ∃ (s : State) (r : KeyRecord), s.phase = .run ∧ s.faulted = false ∧
    s.slot s.cursor = some r ∧ r.state = .pressShake ∧ r.onPress = none :=
  ⟨one .run (key .pressShake false none (some hR)), key .pressShake false none (some hR), by decide⟩
theorem witness_ReleaseShakeHigh_with_handle : ∃ (s : State) (r : KeyRecord), s.phase = .run ∧ s.faulted = false ∧
    s.slot s.cursor = some r ∧ r.state = .releaseShake ∧ r.onRelease = some hR :=
  ⟨one .run (key .releaseShake true none (some hR)), key .releaseShake true none (some hR), by decide⟩
theorem witness_ReleaseShakeHigh_without : ∃ (s : State) (r : KeyRecord), s.phase = .run ∧ s.faulted = false ∧
    s.slot s.cursor = some r ∧ r.state = .releaseShake ∧ r.onRelease = none :=
  ⟨one .run (key .releaseShake true (some hP) none), key .releaseShake true (some hP) none, by decide⟩

theorem witness_EngineStep : ∃ (s : State) (r : KeyRecord), s.env.turnAt 0 = .engine ∧ s.phase = .run ∧
    s.faulted = false ∧ s.slot s.cursor = some r :=
  ⟨eng (one .run (key .pressed true none none)) .low, key .pressed true none none, by decide⟩
theorem witness_StepRuns_host : ∃ s : State, s.env.turnAt 0 = .host ∧ s.hostEnabled = true ∧
    s.env.hostProg = [bareWord 0x4000#16] ∧ decode (.cmd 0x4000#16) = .legal .arm :=
  ⟨host State.reset 0x4000#16, by decide⟩
theorem witness_StepRuns_cb : ∃ s : State, s.env.turnAt 0 = .cb ∧ s.cbEnabled = true ∧
    s.env.cbProg = [0x30FF#16] ∧ decode (.cmd 0x30FF#16) = .legal (.ispressed 255#8) :=
  ⟨cb waitPress 0x30FF#16, by decide⟩
theorem witness_StepRuns_tick : ∃ s : State, s.env.turnAt 0 = .tick ∧ s.tickEnabled = true :=
  ⟨world (one .idle (key .released false none none)) .tick [] [] [], by decide⟩
theorem witness_StepRuns_engine : ∃ (s : State) (r : KeyRecord), s.env.turnAt 0 = .engine ∧ s.engineEnabled = true ∧
    s.slot s.cursor = some r ∧ decode (.rom (romAddr r.state (s.env.levelAt r.pin 0))) = .legal .tPressedHigh :=
  ⟨eng (one .run (key .pressed true none none)) .high, key .pressed true none none, by decide⟩
theorem witness_Illegal_host : ∃ s : State, s.env.turnAt 0 = .host ∧ s.hostEnabled = true ∧
    s.env.hostProg = [bareWord 0xFFFF#16] ∧ decode (.cmd 0xFFFF#16) = .illegal .reservedBits :=
  ⟨host State.reset 0xFFFF#16, by decide⟩
theorem witness_Illegal_cb : ∃ s : State, s.env.turnAt 0 = .cb ∧ s.cbEnabled = true ∧
    s.env.cbProg = [0x6000#16] ∧ decode (.cmd 0x6000#16) = .illegal .reservedOpcode :=
  ⟨cb waitPress 0x6000#16, by decide⟩
theorem witness_Disabled_host : ∃ s : State, s.env.turnAt 0 = .host ∧ s.phase ≠ .idle ∧
    s.params.hostDuringScan = .stalled :=
  ⟨host waitPress 0x3000#16, by decide⟩
theorem witness_Disabled_tick : ∃ s : State, s.env.turnAt 0 = .tick ∧ s.armed = false :=
  ⟨world State.reset .tick [] [] [], by decide⟩
theorem witness_Disabled_engine : ∃ s : State, s.env.turnAt 0 = .engine ∧ s.phase ≠ .run := ⟨eng State.reset .low, by decide⟩
theorem witness_Disabled_cb : ∃ s : State, s.env.turnAt 0 = .cb ∧ s.phase = .waitCb ∧ s.faulted = true :=
  ⟨cb { waitPress with faulted := true, faultCode := 3#8 } 0x5000#16, by decide⟩
theorem witness_Reset : (world waitPress .reset [] [] []).env.turnAt 0 = .reset := by decide
theorem witness_AfterReset : Params.reference.wellFormed = true ∧
    Params.wellFormed { Params.reference with cap := 1#8 } = true := by decide

theorem witness_Invariant : ∃ s : State, s.Inv ∧ nextIs (step s) (fun t => t.phase = .idle) = true :=
  ⟨eng (one .run (key .pressed true none none)) .high, one_inv _ _ (by decide) rfl _ _ _, by decide⟩
theorem witness_Records_engine : ∃ s : State, s.Inv ∧ s.env.turnAt 0 = .engine ∧
    Registry.read s.keys 0 = some (key .pressed true none none) ∧
    nextIs (step s) (fun t => Registry.read t.keys 0 ≠ Registry.read s.keys 0) = true :=
  ⟨eng (one .run (key .pressed true none none)) .high, one_inv _ _ (by decide) rfl _ _ _, by decide⟩
theorem witness_Records_cb : ∃ s : State, s.Inv ∧ s.env.turnAt 0 = .cb ∧
    Registry.read s.keys 0 = some (key .pressShake true (some hP) none) ∧
    nextIs (step s) (fun t => Registry.read t.keys 0 ≠ Registry.read s.keys 0) = true :=
  ⟨cb waitPress 0x5000#16, waitPress_inv _ _, by decide⟩
theorem witness_Sticky : ∃ s : State, s.Inv ∧ s.armed = true ∧ s.env.turnAt 0 ≠ .reset ∧
    nextIs (step s) (fun t => t.faulted) = true :=
  ⟨host (one .idle (key .pressed true none none)) 0x1000#16, one_inv _ _ (by decide) rfl _ _ _, by decide⟩
theorem witness_Sticky_faulted : ∃ s : State, s.Inv ∧ s.faulted = true ∧ s.env.turnAt 0 ≠ .reset ∧
    nextIs (step s) (fun _ => true) = true := by
  refine ⟨host { one .idle (key .pressed true none none) with faulted := true, faultCode := 2#8 } 0x1000#16, ?_, by decide⟩
  have h := one_inv .idle (key .pressed true none none) (by decide) rfl Port.reset
    (host (one .idle (key .pressed true none none)) 0x1000#16).env none
  exact ⟨h.registryWf, h.liveWritten, h.nonLiveEmpty, h.countLeCap, h.busyArmed, h.waitIffEvent, h.flagsAgree, h.waitsRightly, by decide⟩
theorem witness_Context_tick : ∃ s : State, s.env.turnAt 0 = .tick ∧
    nextIs (step s) (fun t => t.context ≠ s.context) = true :=
  ⟨world (one .idle (key .released false none none)) .tick [] [] [], by decide⟩
theorem witness_Context_engine : ∃ s : State, s.env.turnAt 0 = .engine ∧
    nextIs (step s) (fun t => t.context ≠ s.context) = true :=
  ⟨eng (one .run (key .pressShake false (some hP) none)) .low, by decide⟩
theorem witness_Context_cb : ∃ s : State, s.env.turnAt 0 = .cb ∧
    nextIs (step s) (fun t => t.context ≠ s.context) = true :=
  ⟨cb waitPress 0x5000#16, by decide⟩
theorem witness_EndedRun : ∃ s : State, (s.env.hostProg = [] ∧ s.phase = .idle ∧ s.faulted = false) ∧
    nextIs (step s) (fun t => t.phase = .run) = true :=
  ⟨world (one .idle (key .released false none none)) .tick [] [] [], by decide⟩
theorem witness_ReadOfNoValue_engine : ∃ s : State, s.phase = .run ∧ s.faulted = false ∧ s.slot s.cursor = none ∧
    s.env.turnAt 0 = .engine ∧ nextIs (step s) (fun t => t.faulted && t.env.drawCount = 0 && t.phase = .run) = true :=
  ⟨eng { State.reset with phase := .run } .low, by decide⟩
theorem witness_Faults_host : ∃ s : State, s.Inv ∧ s.faulted = false ∧
    nextIs (step s) (fun t => t.faulted && t.faultCode = 2#8) = true :=
  ⟨host (one .idle (key .pressed true none none)) 0x1000#16, one_inv _ _ (by decide) rfl _ _ _, by decide⟩
theorem witness_Faults_cb : ∃ s : State, s.Inv ∧ s.faulted = false ∧
    nextIs (step s) (fun t => t.faulted && t.faultCode = 3#8) = true :=
  ⟨cb waitPress 0x4000#16, waitPress_inv _ _, by decide⟩
theorem witness_AfterTheHost : ∃ s : State, s.Inv ∧ s.env.hostProg = [] ∧ s.CallbacksBehave ∧ s.faulted = false ∧
    nextIs (step s) (fun t => t.phase = .idle) = true := by
  refine ⟨world waitPress .cb [] [0x5000#16, 0x30FF#16] [], waitPress_inv _ _, rfl, ?_, rfl, by decide⟩
  intro w hw
  rcases List.mem_cons.mp hw with rfl | hw
  · exact .inl rfl
  · rcases List.mem_singleton.mp hw with rfl
    exact .inr ⟨255#8, rfl⟩
theorem witness_ScanOrder_engine : ∃ s : State, s.Inv ∧ s.env.turnAt 0 = .engine ∧ s.phase = .run ∧
    s.faulted = false ∧ nextIs (step s) (fun t => t.env.pinAsked = some ⟨3⟩ && t.phase = .idle) = true :=
  ⟨eng (one .run (key .pressed true none none)) .high, one_inv _ _ (by decide) rfl _ _ _, by decide⟩
theorem witness_ScanOrder_cb : ∃ s : State, s.Inv ∧ s.env.turnAt 0 = .cb ∧ s.phase = .waitCb ∧
    nextIs (step s) (fun t => t.phase = .idle) = true :=
  ⟨cb waitPress 0x5000#16, waitPress_inv _ _, by decide⟩
theorem witness_ScanOrder_tick : ∃ s : State, s.Inv ∧ s.env.turnAt 0 = .tick ∧ s.phase = .idle ∧
    nextIs (step s) (fun t => t.phase = .run) = true :=
  ⟨world (one .idle (key .pressed true none none)) .tick [] [] [], one_inv _ _ (by decide) rfl _ _ _, by decide⟩
theorem witness_OneOfEngineAndCb : (waitPress.phase ≠ .idle ∧ waitPress.faulted = false) ∧
    (one .run (key .pressed true none none)).phase ≠ .idle := by decide
/-- A key with a callback and the samples that call it. -/
theorem witness_Scan : ∃ (s : State) (turns : List Turn) (words : List CmdWord), s.Inv ∧ s.faulted = false ∧
    s.armed = true ∧ s.phase = .idle ∧ 0 < s.count.toNat ∧
    s.env.sched = .tick :: (scanTurns s.count.toNat ++ turns) ∧
    s.env.cbProg = List.replicate s.count.toNat 0x5000#16 ++ words :=
  ⟨{ one .idle (key .pressShake false (some hP) none) with
      env := { Env.reset with sched := [.tick, .engine, .cb], cbProg := [0x5000#16], draws := [.low] } },
    [], [], one_inv _ _ (by decide) rfl _ _ _, by decide⟩
theorem witness_ShakeState : (key .releaseShake true none none).state = .releaseShake ∧
    (key .pressShake false none none).state = .pressShake := by decide
theorem witness_Steady : (key .released false none none).state = .released ∧
    (key .pressed true none none).state = .pressed := by decide
theorem witness_ActionNeeds_mark : ((key .released false none none).after ([.high] ++ [.low])).actionAt .low = .markPressed := by
  decide
theorem witness_ActionNeeds_clear :
    ((key .released false none none).after ([.low, .low] ++ [.high])).actionAt .high = .clearPressed := by decide
theorem witness_NoTwoLow : (key .released false none none).state = .released ∧
    (key .released false none none).isPressed = false ∧ noTwoLow [.low, .high, .low, .high] = true := by decide
theorem witness_NoTwoLow_excludes : noTwoLow [.high, .low, .low] = false := by decide
theorem witness_ActionsAlternate : (key .released false none none).actions [.low, .low, .high, .high, .low, .low] =
    [.markPressed, .clearPressed, .markPressed] := by decide

end Sys2Proof.Tests
end

/-! What a next answer of `exec` comes to, said once, and the three obligations of 00_scope.md settled from it. -/

namespace Sys2Proof.Machine

/-! ### The invariant and the world at the ports -/

/-- The invariant speaks of the block's own state, not of the world at its ports. -/
theorem State.Inv.anyWorld {s : State} (h : s.Inv) (p : Port) (e : Env) :
    State.Inv { s with port := p, env := e } :=
  ⟨h.registryWf, h.liveWritten, h.nonLiveEmpty, h.countLeCap, h.busyArmed, h.waitIffEvent, h.flagsAgree,
    h.waitsRightly, h.faultCodeLegal⟩

theorem State.Inv.takeTurn {s : State} (h : s.Inv) : s.takeTurn.Inv := h.anyWorld _ _
theorem State.Inv.takeDraw {s : State} (h : s.Inv) (p : PinRef) : (s.takeDraw p).Inv := h.anyWorld _ _
theorem State.Inv.takeHostWord {s : State} (h : s.Inv) : s.takeHostWord.Inv := h.anyWorld _ _
theorem State.Inv.takeCbWord {s : State} (h : s.Inv) : s.takeCbWord.Inv := h.anyWorld _ _
theorem State.Inv.withPort {s : State} (h : s.Inv) (a : Issuer) (c : Command) : (s.withPort a c).Inv :=
  h.anyWorld _ _

/-- Every live slot holds a record (R32). -/
theorem State.Inv.exists_record {s : State} (h : s.Inv) {i : Byte} (hi : i.toNat < s.count.toNat) :
    ∃ r, s.slot i = some r :=
  Option.isSome_iff_exists.mp ((h.liveWritten i.toNat).trans (decide_eq_true hi))

/-- In a scan slot CURSOR holds a record (R32, R51). -/
theorem State.Inv.exists_cursor_record {s : State} (h : s.Inv) (hrun : s.engineEnabled = true) :
    ∃ r, s.slot s.cursor = some r := by
  have hbusy : s.phase ≠ .idle := by simp [((engineEnabled_iff s).mp hrun).1]
  exact h.exists_record (h.busyArmed hbusy).2

/-- Under the invariant ISPRESSED reads no field without a value (R80, R188). -/
theorem State.Inv.query_responds {s : State} (h : s.Inv) (idx : Byte) : ∃ v, s.query idx = s.respond v := by
  rcases query_cases s idx with ⟨r, -, -, hq⟩ | ⟨hlive, hnone, -⟩ | ⟨-, hq⟩
  · exact ⟨_, hq⟩
  · obtain ⟨r, hr⟩ := h.exists_record hlive
    simp [hnone] at hr
  · exact ⟨_, hq⟩

/-! ### The decoder -/

@[simp] theorem romAddr_state_cond (a : RomAddr) : romAddr (romAddrState a) (romAddrCond a) = a := by
  revert a; decide

/-- A ROM row's meaning is EVAL_KEY with that entry and the level of its address (R115, R159). -/
theorem exec_decodeEntry (a : RomAddr) (s : State) :
    exec (decodeEntry a) s = evalEntry a (romAddrCond a) s := by
  have hrow (st : KeyState) (lv : Level) :
      exec (decodeEntry (romAddr st lv)) s = evalEntry (romAddr st lv) (romAddrCond (romAddr st lv)) s := by
    cases st <;> cases lv <;> rfl
  simpa using hrow (romAddrState a) (romAddrCond a)

/-! ### What an instruction can do -/

/-- `c` is the fault that instruction `i`, issued by the agent on the port, is a breach for (R235 to R238). -/
inductive Breach (s : State) : Instr → FaultCause → Prop
  | registerAfterArm (hagent : s.port.agent = .host) (harmed : s.armed = true) :
      Breach s .register .registerAfterArm
  | reentrant {i : Instr} (hagent : s.port.agent = .cb) (hi : i ∈ [Instr.register, Instr.arm, Instr.scantick]) :
      Breach s i .reentrantCommand
  | scanFromForeground (hagent : s.port.agent = .host) : Breach s .scantick .scanFromForeground
  | spuriousCbdone (hagent : s.port.agent = .host) : Breach s .cbdone .spuriousCbdone

/-- The next states that instruction `i` can answer from `s`, each with the guard under which it does. -/
inductive Effect (s : State) : Instr → State → Prop
  | registers (hagent : s.port.agent = .host) (harmed : s.armed = false) : Effect s .register s.register
  | answers (idx : Byte) (hagent : s.port.agent ≠ .tick) : Effect s (.ispressed idx) (s.query idx)
  | arms (hagent : s.port.agent = .host) : Effect s .arm { s with armed := true, response := none }
  | startsScan (hagent : s.port.agent = .tick) (hen : s.tickEnabled = true) : Effect s .scantick s.startScan
  | returns (hagent : s.port.agent = .cb) (hen : s.cbEnabled = true) : Effect s .cbdone s.returnFromCallback
  | evaluates {i : Instr} {t : State} (a : RomAddr) (hi : i = decodeEntry a)
      (heval : evalEntry a (romAddrCond a) s = .next t) : Effect s i t
  | faults {i : Instr} (c : FaultCause) (hbreach : Breach s i c) : Effect s i (s.raiseFault c)

theorem execRegister_next {s t : State} (h : execRegister s = .next t) : Effect s .register t := by
  unfold execRegister at h
  split at h
  · split at h <;> cases h
    · exact .faults _ (.registerAfterArm ‹_› ‹_›)
    · exact .registers ‹_› (Bool.eq_false_of_not_eq_true ‹_›)
  · cases h
    exact .faults _ (.reentrant ‹_› (by simp))
  · cases h

theorem execIspressed_next {s t : State} {idx : Byte} (h : execIspressed idx s = .next t) :
    Effect s (.ispressed idx) t := by
  unfold execIspressed at h
  split at h
  · cases h
    exact .answers idx (by simp [*])
  · cases h
    exact .answers idx (by simp [*])
  · cases h

theorem execArm_next {s t : State} (h : execArm s = .next t) : Effect s .arm t := by
  unfold execArm at h
  split at h <;> cases h
  · exact .arms ‹_›
  · exact .faults _ (.reentrant ‹_› (by simp))

theorem execScantick_next {s t : State} (h : execScantick s = .next t) : Effect s .scantick t := by
  unfold execScantick at h
  split at h
  · split at h <;> cases h
    exact .startsScan ‹_› ‹_›
  · cases h
    exact .faults _ (.scanFromForeground ‹_›)
  · cases h
    exact .faults _ (.reentrant ‹_› (by simp))

theorem execCbdone_next {s t : State} (h : execCbdone s = .next t) : Effect s .cbdone t := by
  unfold execCbdone at h
  split at h
  · split at h <;> cases h
    exact .returns ‹_› ‹_›
  · cases h
    exact .faults _ (.spuriousCbdone ‹_›)
  · cases h

/-- Whatever `exec` answers next is one of the effects listed. -/
theorem exec_next {i : Instr} {s t : State} (h : exec i s = .next t) : Effect s i t := by
  cases i with
  | register => exact execRegister_next h
  | scantick => exact execScantick_next h
  | ispressed idx => exact execIspressed_next h
  | arm => exact execArm_next h
  | cbdone => exact execCbdone_next h
  | tReleasedLow => exact .evaluates 0b000#3 rfl h
  | tReleasedHigh => exact .evaluates 0b001#3 rfl h
  | tPressShakeLow => exact .evaluates 0b010#3 rfl h
  | tPressShakeHigh => exact .evaluates 0b011#3 rfl h
  | tPressedLow => exact .evaluates 0b100#3 rfl h
  | tPressedHigh => exact .evaluates 0b101#3 rfl h
  | tReleaseShakeLow => exact .evaluates 0b110#3 rfl h
  | tReleaseShakeHigh => exact .evaluates 0b111#3 rfl h

/-! ### The registers that stay between resets -/

/-- From `s` to `t`, the parameters, ARMED, COUNT and the fault registers are the same. -/
structure SameSticky (s t : State) : Prop where
  params    : t.params = s.params
  armed     : t.armed = s.armed
  count     : t.count = s.count
  faulted   : t.faulted = s.faulted
  faultCode : t.faultCode = s.faultCode

/-- From `s` to `t`, no register of R39, R40 and R42 went back, and no parameter changed. -/
structure Sticky (s t : State) : Prop where
  params  : t.params = s.params
  armed   : s.armed = true → t.armed = true ∧ t.count = s.count
  faulted : s.faulted = true → t.faulted = true ∧ t.faultCode = s.faultCode
  count   : s.count.toNat ≤ t.count.toNat

theorem SameSticky.sticky {s t : State} (h : SameSticky s t) : Sticky s t where
  params := h.params
  armed harmed := ⟨h.armed.trans harmed, h.count⟩
  faulted hf := ⟨h.faulted.trans hf, h.faultCode⟩
  count := by rw [h.count]

/-- The world at the ports holds none of these registers. -/
theorem Sticky.ofAnyWorld {s t : State} {p : Port} {e : Env} (h : Sticky { s with port := p, env := e } t) :
    Sticky s t :=
  ⟨h.params, h.armed, h.faulted, h.count⟩

theorem startScan_sameSticky (s : State) : SameSticky s s.startScan := by
  rcases startScan_cases s with ⟨-, h⟩ | ⟨-, h⟩ <;> rw [h] <;> exact ⟨rfl, rfl, rfl, rfl, rfl⟩

theorem returnFromCallback_sameSticky (s : State) : SameSticky s s.returnFromCallback := by
  rw [returnFromCallback_frame]
  exact ⟨rfl, rfl, rfl, rfl, rfl⟩

theorem commit_sameSticky (s : State) (r : KeyRecord) (nxt : KeyState) : SameSticky s (s.commit r nxt) := by
  rw [commit_frame]
  exact ⟨rfl, rfl, rfl, rfl, rfl⟩

theorem notify_sameSticky (s : State) (kind : EventKind) (handle : Option CbRef) (r : KeyRecord) (nxt : KeyState) :
    SameSticky s (s.notify kind handle r nxt) := by
  rcases notify_cases s kind handle r nxt with ⟨-, h⟩ | ⟨_, -, h⟩ <;> rw [h]
  · exact commit_sameSticky s r nxt
  · exact ⟨rfl, rfl, rfl, rfl, rfl⟩

theorem applyEntry_sameSticky (s : State) (e : RomEntry) (r : KeyRecord) : SameSticky s (s.applyEntry e r) := by
  rcases applyEntry_cases s e r with ⟨-, h⟩ | ⟨-, -, h⟩ | ⟨-, -, h⟩ | ⟨-, -, h⟩ <;> rw [h]
  · constructor <;> simp
  · exact commit_sameSticky ..
  · exact notify_sameSticky ..
  · exact notify_sameSticky ..

theorem query_sameSticky {s : State} (h : s.Inv) (idx : Byte) : SameSticky s (s.query idx) := by
  obtain ⟨v, hv⟩ := h.query_responds idx
  rw [hv]
  exact ⟨rfl, rfl, rfl, rfl, rfl⟩

/-- Under the invariant the engine step reads only fields that hold values (R159: "Exceptions: none"). -/
theorem evalEntry_sameSticky {s t : State} (hinv : s.Inv) {a : RomAddr} {lv : Level}
    (h : evalEntry a lv s = .next t) : SameSticky s t := by
  obtain ⟨hen, ⟨r, -, rfl⟩ | ⟨hnone, -⟩⟩ := (evalEntry_next a lv s t).mp h
  · exact applyEntry_sameSticky ..
  · obtain ⟨r, hr⟩ := hinv.exists_cursor_record hen
    simp [hnone] at hr

/-- A second fault keeps the first one's code (R232). -/
theorem raiseFault_sticky (s : State) (c : FaultCause) : Sticky s (s.raiseFault c) where
  params := raiseFault_params s c
  armed harmed := ⟨by rw [raiseFault_armed, harmed], raiseFault_count s c⟩
  faulted hf := ⟨raiseFault_faulted s c, by simp [hf]⟩
  count := by rw [raiseFault_count]

/-- COUNT does not wrap where REGISTER increments it, since COUNT is below CAP there (R39). -/
theorem count_succ_toNat {s : State} (hle : s.count.toNat ≤ s.params.cap.toNat) (hne : s.count ≠ s.params.cap) :
    (s.count + 1#8).toNat = s.count.toNat + 1 := by
  have hlt := s.params.cap.isLt
  have hne' : s.count.toNat ≠ s.params.cap.toNat := fun h => hne (BitVec.eq_of_toNat_eq h)
  simp only [BitVec.toNat_add, BitVec.toNat_ofNat]
  omega

theorem register_sticky {s : State} (hinv : s.Inv) (harmed : s.armed = false) : Sticky s s.register := by
  rcases register_cases s with ⟨-, h⟩ | ⟨hne, h⟩ <;> rw [h]
  · constructor <;> simp
  · constructor <;> simp [harmed, count_succ_toNat hinv.countLeCap hne]

theorem register_faulted (s : State) : s.register.faulted = s.faulted := by
  rcases register_cases s with ⟨-, h⟩ | ⟨-, h⟩ <;> rw [h]

theorem Effect.sticky {s t : State} {i : Instr} (h : Effect s i t) (hinv : s.Inv) : Sticky s t := by
  cases h with
  | registers hagent harmed => exact register_sticky hinv harmed
  | answers idx => exact (query_sameSticky hinv idx).sticky
  | arms => constructor <;> simp
  | startsScan => exact (startScan_sameSticky s).sticky
  | returns => exact (returnFromCallback_sameSticky s).sticky
  | evaluates a hi heval => exact (evalEntry_sameSticky hinv heval).sticky
  | faults c => exact raiseFault_sticky s c

/-- Under the invariant a fault is recorded only where the instruction is a breach for its issuer. -/
theorem Effect.breach_of_faulted {s t : State} {i : Instr} (h : Effect s i t) (hinv : s.Inv)
    (hs : s.faulted = false) (ht : t.faulted = true) : ∃ c, Breach s i c ∧ t.faultCode = c.code := by
  have hchanged : t.faulted ≠ s.faulted := by simp [ht, hs]
  cases h with
  | registers => exact absurd (register_faulted s) hchanged
  | answers idx => exact absurd (query_sameSticky hinv idx).faulted hchanged
  | arms => exact absurd rfl hchanged
  | startsScan => exact absurd (startScan_sameSticky s).faulted hchanged
  | returns => exact absurd (returnFromCallback_sameSticky s).faulted hchanged
  | evaluates a hi heval => exact absurd (evalEntry_sameSticky hinv heval).faulted hchanged
  | faults c hbreach => exact ⟨c, hbreach, by simp [hs]⟩

/-! ### Issuing a word -/

theorem issue_sticky {a : Issuer} {c : Command} {s t : State} (hinv : s.Inv) (h : issue a c s = .next t) :
    Sticky s t := by
  rcases issue_cases a c s with ⟨i, -, hi⟩ | ⟨why, -, hi⟩ <;> rw [hi] at h
  · exact .ofAnyWorld ((exec_next h).sticky (hinv.withPort a c))
  · cases h
    exact .ofAnyWorld (raiseFault_sticky (s.withPort a c) .illegalCommand)

/-- Issuing a word records a fault only where the word is Illegal, or its command a breach for the issuer. -/
theorem issue_cause {a : Issuer} {c : Command} {s t : State} (hinv : s.Inv) (h : issue a c s = .next t)
    (hs : s.faulted = false) (ht : t.faulted = true) :
    (∃ why, decodeCmd c.word = .illegal why ∧ t.faultCode = 1#8) ∨
    (∃ i cause, decodeCmd c.word = .legal i ∧ Breach (s.withPort a c) i cause ∧ t.faultCode = cause.code) := by
  rcases issue_cases a c s with ⟨i, hdec, hi⟩ | ⟨why, hdec, hi⟩ <;> rw [hi] at h
  · obtain ⟨cause, hbreach, hcode⟩ := (exec_next h).breach_of_faulted (hinv.withPort a c) hs ht
    exact .inr ⟨i, cause, hdec, hbreach, hcode⟩
  · cases h
    exact .inl ⟨why, hdec, by simp [hs, FaultCause.code]⟩

/-! ### The obligations -/

/-- Settles O31: only HOST's and CB's words can be a breach, and each breach has its own code. -/
theorem faultsAreRecordedForTheirCausesOnly : Obligations.FaultsAreRecordedForTheirCausesOnly := by
  intro s t hinv hstep hs ht
  have hchanged : t.faulted ≠ s.faulted := by simp [ht, hs]
  rcases step_next_cases s t hstep with rfl | ⟨-, rfl⟩ | ⟨c, rest, hturn, hen, hprog, h⟩ | ⟨-, -, h⟩ |
    ⟨w, rest, hturn, hen, hprog, h⟩ | ⟨r, -, -, -, h⟩ | ⟨-, hen, hnone, -⟩
  · exact absurd rfl hchanged
  · cases ht
  · refine .inl ⟨c, rest, hturn, hen, hprog, ?_⟩
    rcases issue_cause hinv.takeTurn.takeHostWord h hs ht with hillegal | ⟨i, cause, hdec, hbreach, hcode⟩
    · exact .inl hillegal
    · cases hbreach with
      | registerAfterArm _ harmed => exact .inr (.inl ⟨hdec, harmed, hcode⟩)
      | reentrant hagent => cases hagent
      | scanFromForeground => exact .inr (.inr (.inl ⟨hdec, hcode⟩))
      | spuriousCbdone => exact .inr (.inr (.inr ⟨hdec, hcode⟩))
  · obtain ⟨cause, hbreach, -⟩ := (exec_next h).breach_of_faulted (hinv.takeTurn.withPort _ _) hs ht
    cases hbreach with
    | reentrant hagent | scanFromForeground hagent => cases hagent
  · refine .inr ⟨w, rest, hturn, hen, hprog, ?_⟩
    rcases issue_cause hinv.takeTurn.takeCbWord h hs ht with hillegal | ⟨i, cause, hdec, hbreach, hcode⟩
    · exact .inl hillegal
    · cases hbreach with
      | reentrant _ hi => exact .inr ⟨i, hi, hdec, hcode⟩
      | registerAfterArm hagent | scanFromForeground hagent | spuriousCbdone hagent => cases hagent
  · rw [exec_decodeEntry] at h
    exact absurd (evalEntry_sameSticky (hinv.takeTurn.takeDraw _) h).faulted hchanged
  · obtain ⟨r, hr⟩ := hinv.exists_cursor_record hen
    simp [hnone] at hr

theorem step_sticky {s t : State} (hinv : s.Inv) (hstep : step s = .next t) (hreset : s.env.turnAt 0 ≠ .reset) :
    Sticky s t := by
  rcases step_next_cases s t hstep with rfl | ⟨hturn, -⟩ | ⟨c, rest, -, -, -, h⟩ | ⟨-, -, h⟩ |
    ⟨w, rest, -, -, -, h⟩ | ⟨r, -, -, -, h⟩ | ⟨-, -, -, rfl⟩
  · exact SameSticky.sticky ⟨rfl, rfl, rfl, rfl, rfl⟩
  · exact absurd hturn hreset
  · exact .ofAnyWorld (issue_sticky hinv.takeTurn.takeHostWord h)
  · exact .ofAnyWorld ((exec_next h).sticky (hinv.takeTurn.withPort _ _))
  · exact .ofAnyWorld (issue_sticky hinv.takeTurn.takeCbWord h)
  · exact .ofAnyWorld ((exec_next h).sticky (hinv.takeTurn.takeDraw _))
  · exact .ofAnyWorld (raiseFault_sticky s.takeTurn _)

/-- Settles O33, by the effects an agent's step can have: only REGISTER, ARM and a fault write these registers. -/
theorem stickyRegistersStay : Obligations.StickyRegistersStay := by
  intro s t hinv hstep hreset
  obtain ⟨hparams, harmed, hfaulted, hcount⟩ := step_sticky hinv hstep hreset
  exact ⟨hparams, harmed, hfaulted, hcount⟩

theorem exec_ispressed {s : State} (hagent : s.port.agent ≠ .tick) (idx : Byte) :
    exec (.ispressed idx) s = .next (s.query idx) := by
  simp only [exec, execIspressed]
  cases h : s.port.agent <;> simp_all

/-- ENGINE's step where slot CURSOR holds no record: no level is drawn (R12). -/
theorem step_engine_of_no_record {s : State} (hturn : s.env.turnAt 0 = .engine) (hen : s.engineEnabled = true)
    (hnone : s.slot s.cursor = none) : step s = .next s.takeTurn.readNoValue := by
  have hnone' : s.takeTurn.slot s.cursor = none := hnone
  simp [step, hturn, runTurn, engineTurn, hen, evalKey, hnone']

/-- Settles O48: each of the three reads answers `State.readNoValue`, which raises a fault of a free cause. -/
theorem readOfNoValueFaults : Obligations.ReadOfNoValueFaults := by
  intro s
  refine ⟨fun idx hagent hlive hnone => ?_, fun hrun hfaulted hnone => ?_⟩
  · have hquery : s.query idx = s.readNoValue := by simp [State.query, hlive, hnone]
    obtain ⟨c, hc⟩ := readNoValue_raised s
    exact ⟨_, c, by rw [exec_ispressed hagent, hquery], hc⟩
  · have hen : s.engineEnabled = true := (engineEnabled_iff s).mpr ⟨hrun, hfaulted⟩
    refine ⟨fun a => ?_, fun hturn => ?_⟩
    · obtain ⟨c, hc⟩ := readNoValue_raised s
      exact ⟨_, c, by rw [exec_decodeEntry, (evalEntry_next _ _ _ _).mpr ⟨hen, .inr ⟨hnone, rfl⟩⟩], hc⟩
    · obtain ⟨c, hc⟩ := readNoValue_raised s.takeTurn
      exact ⟨_, c, step_engine_of_no_record hturn hen hnone, hc⟩

end Sys2Proof.Machine

/-! The six obligations of 10_state.md, from what a turn can do to the block and what each of these effects keeps. -/

namespace Sys2Proof.Machine

/-! ### STATUS -/

/-- Settles O27: every field but COUNT is found above the fields that stand below it. -/
theorem statusWordFields : Obligations.StatusWordFields := by
  intro s
  unfold State.status
  refine ⟨BitVec.extractLsb'_append_eq_right, ?_, ?_, ?_, ?_, ?_, ?_, ?_, ?_⟩
  all_goals
    simp only [BitVec.extractLsb'_append_eq_of_le, BitVec.extractLsb'_append_eq_right, Nat.reduceLeDiff, Nat.reduceSub]
  · rfl
  · exact BitVec.extractLsb'_eq_self

/-! ### Keeping the invariant: the registers and the register file -/

/-- After reset the block satisfies the invariant, whatever the parameters and the world (R49). -/
theorem resetBlock_inv (s : State) : s.resetBlock.Inv where
  registryWf := rfl
  liveWritten i := by simp [State.resetBlock, State.reset]
  nonLiveEmpty i _ := rfl
  countLeCap := Nat.zero_le _
  busyArmed hbusy := absurd rfl hbusy
  waitIffEvent := by simp [State.resetBlock, State.reset]
  flagsAgree i r hr := by cases hr
  waitsRightly e r he := by cases he
  faultCodeLegal := by simp [State.resetBlock, State.reset]

/-- Settles O28: the reset state is itself a block just reset. -/
theorem resetSatisfiesTheInvariant : Obligations.ResetSatisfiesTheInvariant := resetBlock_inv State.reset

section
variable {s : State}

theorem State.Inv.anyResponse (h : s.Inv) (v : Option Byte) : State.Inv { s with response := v } := { h with }

theorem State.Inv.arm (h : s.Inv) : State.Inv { s with armed := true } :=
  { h with busyArmed := fun hbusy => ⟨rfl, (h.busyArmed hbusy).2⟩ }

theorem State.Inv.raiseFault (h : s.Inv) (c : FaultCause) : (s.raiseFault c).Inv := by
  unfold State.raiseFault
  split
  · exact h.anyResponse none
  · exact { h with faultCodeLegal := ⟨nofun, fun _ => code_legal c⟩ }

/-- Outside a callback wait no event is pending (R51). -/
theorem State.Inv.no_event (h : s.Inv) (hwait : s.phase ≠ .waitCb) : s.pendingEvt = none :=
  not_not.mp (mt h.waitIffEvent.mpr hwait)

theorem waitsRightly_of_no_event (h : s.pendingEvt = none) : s.WaitsRightly := by
  intro e r he
  simp [h] at he

/-- The register file holds records in its first `n` slots, and nothing above them (R32). -/
structure Registry.HoldsFirst (f : Registry) (n : Nat) : Prop where
  wf      : Registry.wf f = true
  written : ∀ i, (Registry.read f i).isSome = decide (i < n)
  empty   : ∀ i, n ≤ i → Registry.find f i = none

theorem State.Inv.holdsFirst (h : s.Inv) : Registry.HoldsFirst s.keys s.count.toNat :=
  ⟨h.registryWf, h.liveWritten, h.nonLiveEmpty⟩

/-- A record written over a live one, or at the first free slot. -/
theorem Registry.HoldsFirst.write {f : Registry} {n m i : Nat} (h : Registry.HoldsFirst f n) (r : KeyRecord)
    (hm : ∀ j, j < m ↔ j = i ∨ j < n) : Registry.HoldsFirst (Registry.write f i (.record r)) m where
  wf := Registry.wf_write f i _ h.wf
  written j := by
    rw [Registry.read_write]
    split <;> simp [h.written, *]
  empty j hj := by
    have hfree : ¬ (j = i ∨ j < n) := fun hlt => absurd ((hm j).mpr hlt) (by omega)
    rw [Registry.find_write_ne f i j _ (by omega)]
    exact h.empty j (by omega)

theorem State.Inv.holdsFirst_write (h : s.Inv) {i : Byte} (hi : i.toNat < s.count.toNat) (r : KeyRecord) :
    Registry.HoldsFirst (Registry.write s.keys i.toNat (.record r)) s.count.toNat :=
  h.holdsFirst.write r (by omega)

/-- Outside a callback wait a live key may be written, with a flag that agrees with its state (R161). -/
theorem State.Inv.writeSlot (h : s.Inv) (hwait : s.phase ≠ .waitCb) {i : Byte} (hi : i.toNat < s.count.toNat)
    {r : KeyRecord} (hflag : r.isPressed = r.state.isDown) : (s.writeSlot i r).Inv := by
  have hkeys := h.holdsFirst_write hi r
  refine { h with
    registryWf := hkeys.wf, liveWritten := hkeys.written, nonLiveEmpty := hkeys.empty,
    waitsRightly := waitsRightly_of_no_event (h.no_event hwait), flagsAgree := fun j q hq _ => ?_ }
  rw [read_writeSlot] at hq
  split at hq
  · cases hq
    exact hflag
  · exact h.flagsAgree j q hq fun hw => hwait hw.1

theorem State.Inv.register (h : s.Inv) (harmed : s.armed = false) : s.register.Inv := by
  rcases register_cases s with ⟨-, heq⟩ | ⟨hne, heq⟩ <;> rw [heq]
  · exact h.anyResponse _
  · have hidle : s.phase = .idle := by
      by_contra hbusy
      simp [(h.busyArmed hbusy).1] at harmed
    have hsucc := count_succ_toNat h.countLeCap hne
    have hkeys := h.holdsFirst.write (i := s.count.toNat) (m := (s.count + 1#8).toNat) s.newRecord (by omega)
    have hnoEvent := h.no_event (by simp [hidle])
    refine { h with
      registryWf := hkeys.wf, liveWritten := hkeys.written, nonLiveEmpty := hkeys.empty,
      countLeCap := ?_, busyArmed := fun hbusy => absurd hidle hbusy,
      waitsRightly := waitsRightly_of_no_event hnoEvent, flagsAgree := fun j q hq hw => ?_ }
    · have hlt := Nat.lt_of_le_of_ne h.countLeCap (BitVec.toNat_ne.mp hne)
      exact hsucc.trans_le hlt
    · simp only [Registry.read_write] at hq
      split at hq
      · cases hq
        rfl
      · exact h.flagsAgree j q hq hw

/-! ### Keeping the invariant: the sequencer -/

/-- Outside a callback wait the sequencer may go to any live key, or to rest (R51). -/
theorem State.Inv.sequence (h : s.Inv) (hwait : s.phase ≠ .waitCb) {cur : Byte} {ph : Phase} (hph : ph ≠ .waitCb)
    (hbusy : ph ≠ .idle → s.armed = true ∧ cur.toNat < s.count.toNat) :
    State.Inv { s with cursor := cur, phase := ph } :=
  have hnoEvent := h.no_event hwait
  { h with
    busyArmed := hbusy
    waitIffEvent := by simp [hph, hnoEvent]
    flagsAgree := fun i r hr _ => h.flagsAgree i r hr fun hw => hwait hw.1
    waitsRightly := waitsRightly_of_no_event hnoEvent }

theorem State.Inv.startScan (h : s.Inv) (hen : s.tickEnabled = true) : s.startScan.Inv := by
  obtain ⟨harmed, hidle, -⟩ := (tickEnabled_iff s).mp hen
  rcases startScan_cases s with ⟨-, heq⟩ | ⟨hne, heq⟩ <;> rw [heq]
  · exact h.anyResponse none
  · have hlive : (0#8).toNat < s.count.toNat := BitVec.toNat_pos_of_ne_zero hne
    exact (h.sequence (ph := .run) (by simp [hidle]) nofun fun _ => ⟨harmed, hlive⟩).anyResponse none

theorem State.Inv.advance (h : s.Inv) (hrun : s.phase = .run) : s.advance.Inv := by
  have hwait : s.phase ≠ .waitCb := by simp [hrun]
  rcases advance_cases s with ⟨hlt, heq⟩ | ⟨-, heq⟩ <;> rw [heq]
  · refine h.sequence hwait (by simp) fun _ => ⟨(h.busyArmed (by simp [hrun])).1, ?_⟩
    rwa [cursor_succ_toNat s hlt]
  · exact h.sequence hwait (by simp) fun hbusy => absurd rfl hbusy

/-- The advance sets PHASE, so it does not depend on the one it finds (R206). -/
theorem advance_of_run (s : State) : State.advance { s with phase := .run } = s.advance := by
  unfold State.advance
  split <;> rfl

/-- In a scan key CURSOR is live (R51). -/
theorem State.Inv.cursor_live (h : s.Inv) (hbusy : s.phase ≠ .idle) : s.cursor.toNat < s.count.toNat :=
  (h.busyArmed hbusy).2

theorem State.Inv.commit (h : s.Inv) (hrun : s.phase = .run) {r : KeyRecord} {nxt : KeyState}
    (hflag : r.isPressed = nxt.isDown) : (s.commit r nxt).Inv :=
  (h.writeSlot (by simp [hrun]) (h.cursor_live (by simp [hrun])) hflag).advance hrun

/-- The callback call: key CURSOR has the new flag and still the shake state (R157, R162). -/
theorem State.Inv.emitEvent (h : s.Inv) (hrun : s.phase = .run) {r : KeyRecord} {nxt : KeyState} {kind : EventKind}
    {hd : CbRef} (hwaits : ∀ e : Event, e.kind = kind → e.handle = hd →
      State.WaitsForPress { s with pendingNext := nxt } e r ∨ State.WaitsForRelease { s with pendingNext := nxt } e r) :
    (State.emitEvent { s.writeSlot s.cursor r with pendingNext := nxt } kind hd).Inv := by
  have hbusy : s.phase ≠ .idle := by simp [hrun]
  have hkeys := h.holdsFirst_write (h.cursor_live hbusy) r
  refine { h with
    registryWf := hkeys.wf, liveWritten := hkeys.written, nonLiveEmpty := hkeys.empty,
    busyArmed := fun _ => h.busyArmed hbusy, waitIffEvent := by simp,
    flagsAgree := fun j q hq hw => ?_, waitsRightly := fun e q he hq => ?_ }
  · have hj : j ≠ s.cursor.toNat := fun hj => hw ⟨rfl, hj.symm⟩
    rw [emitEvent_keys, read_writeSlot, if_neg hj] at hq
    exact h.flagsAgree j q hq (by simp [hrun])
  · cases he
    have hqr : some r = some q := (slot_writeSlot_self s s.cursor r).symm.trans hq
    cases hqr
    exact ⟨rfl, hwaits _ rfl rfl⟩

/-- The return from a callback: PENDING_NEXT is the state that the new flag agrees with (R162, R198). -/
theorem State.Inv.returnFromCallback (h : s.Inv) (hen : s.cbEnabled = true) : s.returnFromCallback.Inv := by
  obtain ⟨hwait, -⟩ := (cbEnabled_iff s).mp hen
  have hbusy : s.phase ≠ .idle := by simp [hwait]
  have hlive := h.cursor_live hbusy
  obtain ⟨r, hr⟩ := h.exists_record hlive
  obtain ⟨e, he⟩ := Option.ne_none_iff_exists'.mp (h.waitIffEvent.mp hwait)
  have hflag : r.isPressed = s.pendingNext.isDown := by
    obtain ⟨-, ⟨-, -, hpressed, hnext, -⟩ | ⟨-, -, hpressed, hnext, -⟩⟩ := h.waitsRightly e r he hr <;>
      rw [hpressed, hnext] <;> rfl
  have hkeys := h.holdsFirst_write hlive { r with state := s.pendingNext }
  have hcommitted : State.Inv { s.writeSlot s.cursor { r with state := s.pendingNext } with
      pendingEvt := none, response := none, phase := .run } := by
    refine { h with
      registryWf := hkeys.wf, liveWritten := hkeys.written, nonLiveEmpty := hkeys.empty,
      busyArmed := fun _ => h.busyArmed hbusy, waitIffEvent := by simp,
      flagsAgree := fun j q hq _ => ?_, waitsRightly := waitsRightly_of_no_event rfl }
    rw [read_writeSlot] at hq
    split at hq
    · cases hq
      exact hflag
    · rename_i hj
      exact h.flagsAgree j q hq fun hw => hj hw.2.symm
  rw [State.returnFromCallback, writeState_of_slot s s.cursor r _ hr, ← advance_of_run]
  exact hcommitted.advance rfl

/-! ### Keeping the invariant: the transition ROM -/

/-- A transition without an action stays on its side of the flag (R116, R161). -/
theorem romRead_next_isDown {st : KeyState} {lv : Level} (hhit : (romRead (romAddr st lv)).hit = true)
    (haction : (romRead (romAddr st lv)).action = .none) : (romRead (romAddr st lv)).next.isDown = st.isDown := by
  revert hhit haction
  cases st <;> cases lv <;> decide

theorem romRead_markPressed {st : KeyState} {lv : Level} (haction : (romRead (romAddr st lv)).action = .markPressed) :
    st = .pressShake ∧ (romRead (romAddr st lv)).next = .pressed := by
  revert haction
  cases st <;> cases lv <;> decide

theorem romRead_clearPressed {st : KeyState} {lv : Level} (haction : (romRead (romAddr st lv)).action = .clearPressed) :
    st = .releaseShake ∧ (romRead (romAddr st lv)).next = .released := by
  revert haction
  cases st <;> cases lv <;> decide

/-- The ROM entry at key CURSOR's state keeps the invariant, at either level (R158, R159). -/
theorem State.Inv.applyEntry (h : s.Inv) (hen : s.engineEnabled = true) {r : KeyRecord}
    (hr : s.slot s.cursor = some r) (lv : Level) :
    (s.applyEntry (romRead (romAddr r.state lv)) { r with lastSample := lv }).Inv := by
  obtain ⟨hrun, -⟩ := (engineEnabled_iff s).mp hen
  have hflag : r.isPressed = r.state.isDown := h.flagsAgree _ r hr (by simp [hrun])
  rcases applyEntry_cases s (romRead (romAddr r.state lv)) { r with lastSample := lv } with
    ⟨-, heq⟩ | ⟨hhit, haction, heq⟩ | ⟨-, haction, heq⟩ | ⟨-, haction, heq⟩ <;> rw [heq]
  · have hlive := h.cursor_live (by simp [hrun])
    have hwritten := h.writeSlot (r := { r with lastSample := lv }) (by simp [hrun]) hlive hflag
    exact hwritten.advance hrun
  · exact h.commit hrun (hflag.trans (romRead_next_isDown hhit haction).symm)
  · obtain ⟨hstate, hnext⟩ := romRead_markPressed haction
    rcases notify_cases s .press r.onPress (KeyRecord.setPressed { r with lastSample := lv }) _ with
      ⟨-, heq⟩ | ⟨hd, hhandle, heq⟩ <;> rw [heq]
    · exact h.commit hrun (by rw [hnext]; rfl)
    · exact h.emitEvent hrun fun e hkind hhd => .inl ⟨hkind, hstate, rfl, hnext, hhd ▸ hhandle⟩
  · obtain ⟨hstate, hnext⟩ := romRead_clearPressed haction
    rcases notify_cases s .release r.onRelease (KeyRecord.clearPressed { r with lastSample := lv }) _ with
      ⟨-, heq⟩ | ⟨hd, hhandle, heq⟩ <;> rw [heq]
    · exact h.commit hrun (by rw [hnext]; rfl)
    · exact h.emitEvent hrun fun e hkind hhd => .inr ⟨hkind, hstate, rfl, hnext, hhd ▸ hhandle⟩

end

/-! ### What a turn can do to the block -/

/-- The turn in which an agent issues its commands. -/
def Issuer.turn : Issuer → Turn
  | .host => .host
  | .cb => .cb
  | .tick => .tick

/-- The next states that a turn can answer from `s`, whose ports and world show the turn taken and the word issued. -/
inductive BlockStep (s : State) : Turn → State → Prop
  | passes (turn : Turn) : BlockStep s turn s
  | resets : BlockStep s .reset s.resetBlock
  | registers (harmed : s.armed = false) : BlockStep s .host s.register
  | answers (turn : Turn) (idx : Byte) : BlockStep s turn (s.query idx)
  | arms : BlockStep s .host { s with armed := true, response := none }
  | startsScan (hen : s.tickEnabled = true) : BlockStep s .tick s.startScan
  | returns (hen : s.cbEnabled = true) : BlockStep s .cb s.returnFromCallback
  | evaluates (r : KeyRecord) (lv : Level) (hen : s.engineEnabled = true) (hr : s.slot s.cursor = some r) :
      BlockStep s .engine
        ((s.takeDraw r.pin).applyEntry (romRead (romAddr r.state lv)) { r with lastSample := lv })
  | faults (turn : Turn) (c : FaultCause) : BlockStep s turn (s.raiseFault c)

theorem encode_decodeEntry (a : RomAddr) : encode (decodeEntry a) = .rom a := by
  revert a
  decide

/-- What a command word encodes is no ROM row. -/
theorem ne_decodeEntry_of_encode {i : Instr} {w : CmdWord} (h : encode i = .cmd w) (a : RomAddr) :
    i ≠ decodeEntry a := by
  rintro rfl
  simp [encode_decodeEntry] at h

theorem bareCommand_legal {i j : Instr} {w : CmdWord} (h : bareCommand i w = .legal j) : j = i := by
  unfold bareCommand at h
  split at h <;> cases h
  rfl

theorem encode_of_decodeCmd {w : CmdWord} {i : Instr} (h : decodeCmd w = .legal i) : ∃ w', encode i = .cmd w' := by
  unfold decodeCmd at h
  split at h
  · cases h
  · split at h
    case h_3 => cases h; exact ⟨_, rfl⟩
    case h_6 => cases h
    all_goals
      rw [bareCommand_legal h]
      exact ⟨_, rfl⟩

/-- The effect of a command is one that its issuer's turn can have. -/
theorem Effect.blockStep {s t : State} {i : Instr} (h : Effect s i t) {w : CmdWord} (hcmd : encode i = .cmd w) :
    BlockStep s s.port.agent.turn t := by
  cases h with
  | registers hagent harmed => rw [hagent]; exact .registers harmed
  | answers idx => exact .answers _ idx
  | arms hagent => rw [hagent]; exact .arms
  | startsScan hagent hen => rw [hagent]; exact .startsScan hen
  | returns hagent hen => rw [hagent]; exact .returns hen
  | evaluates a hi => exact absurd hi (ne_decodeEntry_of_encode hcmd a)
  | faults c => exact .faults _ c

theorem issue_blockStep {a : Issuer} {c : Command} {s t : State} (h : issue a c s = .next t) :
    BlockStep (s.withPort a c) a.turn t := by
  rcases issue_cases a c s with ⟨i, hdec, hi⟩ | ⟨why, -, hi⟩ <;> rw [hi] at h
  · obtain ⟨w, hw⟩ := encode_of_decodeCmd hdec
    exact (exec_next h).blockStep hw
  · cases h
    exact .faults _ _

@[simp] theorem romAddrCond_romAddr (st : KeyState) (lv : Level) : romAddrCond (romAddr st lv) = lv := by
  cases st <;> cases lv <;> rfl

/-- The ROM row at key CURSOR's state, where the slot holds a record (R159, R203). -/
theorem exec_row_of_record {s : State} {r : KeyRecord} (hen : s.engineEnabled = true)
    (hr : s.slot s.cursor = some r) (lv : Level) :
    exec (decodeEntry (romAddr r.state lv)) s =
      .next (s.applyEntry (romRead (romAddr r.state lv)) { r with lastSample := lv }) := by
  rw [exec_decodeEntry, romAddrCond_romAddr]
  exact (evalEntry_next _ _ _ _).mpr ⟨hen, .inl ⟨r, hr, rfl⟩⟩

/-- Every step is one of these, with the pin reader as it was before the turn's own effect (R72, R75). -/
theorem step_blockStep {s t : State} (hstep : step s = .next t) : ∃ (p : Port) (e : Env),
    e.drawCount = s.env.drawCount ∧ e.pinAsked = s.env.pinAsked ∧
      BlockStep { s with port := p, env := e } (s.env.turnAt 0) t := by
  rcases step_next_cases s t hstep with rfl | ⟨hturn, rfl⟩ | ⟨c, rest, hturn, -, -, h⟩ | ⟨hturn, -, h⟩ |
    ⟨w, rest, hturn, -, -, h⟩ | ⟨r, hturn, hen, hr, h⟩ | ⟨-, -, -, rfl⟩
  · exact ⟨s.port, s.takeTurn.env, rfl, rfl, .passes _⟩
  · rw [hturn]
    exact ⟨s.port, s.takeTurn.env, rfl, rfl, .resets⟩
  · rw [hturn]
    exact ⟨_, s.takeTurn.takeHostWord.env, rfl, rfl, issue_blockStep h⟩
  · rw [hturn]
    exact ⟨_, s.takeTurn.env, rfl, rfl, (exec_next h).blockStep rfl⟩
  · rw [hturn]
    exact ⟨_, s.takeTurn.takeCbWord.env, rfl, rfl, issue_blockStep h⟩
  · have heval := exec_row_of_record (s := s.takeTurn.takeDraw r.pin) hen hr (s.env.levelAt r.pin 0)
    cases heval.symm.trans h
    rw [hturn]
    exact ⟨s.port, s.takeTurn.env, rfl, rfl, .evaluates r _ hen hr⟩
  · exact ⟨s.port, s.takeTurn.env, rfl, rfl, .faults _ _⟩

theorem BlockStep.inv {s t : State} {turn : Turn} (h : BlockStep s turn t) (hinv : s.Inv) : t.Inv := by
  cases h with
  | passes => exact hinv
  | resets => exact resetBlock_inv s
  | registers harmed => exact hinv.register harmed
  | answers _ idx =>
    obtain ⟨v, hv⟩ := hinv.query_responds idx
    rw [hv]
    exact hinv.anyResponse (some v)
  | arms => exact hinv.arm.anyResponse none
  | startsScan hen => exact hinv.startScan hen
  | returns hen => exact hinv.returnFromCallback hen
  | evaluates r lv hen hr => exact (hinv.takeDraw r.pin).applyEntry hen hr lv
  | faults _ c => exact hinv.raiseFault c

/-- Settles O29: the invariant does not see the ports and the world, and each effect of a turn keeps it. -/
theorem everyStepKeepsTheInvariant : Obligations.EveryStepKeepsTheInvariant := by
  intro s t hinv hstep
  obtain ⟨p, e, -, -, hblock⟩ := step_blockStep hstep
  exact hblock.inv (hinv.anyWorld p e)

/-! ### What a step leaves of the records and of the scan -/

/-- From `s` to `t`, the scan stood still: the sequencer and the world are the same, and every record is kept. -/
structure ScanStands (s t : State) : Prop where
  phase  : t.phase = s.phase
  cursor : t.cursor = s.cursor
  env    : t.env = s.env
  record : ∀ (i : Nat) (r : KeyRecord), Registry.read s.keys i = some r → Registry.read t.keys i = some r

/-- An effect that writes neither the keys, the sequencer nor the world. -/
theorem ScanStands.ofKeys {s t : State} (hphase : t.phase = s.phase) (hcursor : t.cursor = s.cursor)
    (henv : t.env = s.env) (hkeys : t.keys = s.keys) : ScanStands s t :=
  ⟨hphase, hcursor, henv, fun _ _ hr => hkeys ▸ hr⟩

/-- REGISTER writes a slot that is not live, so no record is lost (R182, R184). -/
theorem register_scanStands {s : State} (hinv : s.Inv) : ScanStands s s.register := by
  rcases register_cases s with ⟨-, heq⟩ | ⟨-, heq⟩ <;> rw [heq]
  · exact .ofKeys rfl rfl rfl rfl
  · refine ⟨rfl, rfl, rfl, fun i r hr => ?_⟩
    have hne : i ≠ s.count.toNat := by
      rintro rfl
      simp [Registry.read, hinv.nonLiveEmpty] at hr
    exact (Registry.read_write_ne _ _ _ _ hne).trans hr

/-- The effects, by what they do to the scan: none, its start, the return from a callback, and an evaluation. -/
theorem BlockStep.scan_cases {s t : State} {turn : Turn} (h : BlockStep s turn t) (hinv : s.Inv)
    (hreset : turn ≠ .reset) :
    ScanStands s t ∨
    (turn = .tick ∧ s.tickEnabled = true ∧ 0 < s.count.toNat ∧
      t = { s with cursor := 0#8, phase := .run, response := none }) ∨
    (turn = .cb ∧ s.cbEnabled = true ∧ t = s.returnFromCallback) ∨
    (turn = .engine ∧ s.engineEnabled = true ∧ ∃ r lv, s.slot s.cursor = some r ∧
      t = (s.takeDraw r.pin).applyEntry (romRead (romAddr r.state lv)) { r with lastSample := lv }) := by
  cases h with
  | passes => exact .inl (.ofKeys rfl rfl rfl rfl)
  | resets => exact absurd rfl hreset
  | registers => exact .inl (register_scanStands hinv)
  | answers _ idx =>
    obtain ⟨v, hv⟩ := hinv.query_responds idx
    rw [hv]
    exact .inl (.ofKeys rfl rfl rfl rfl)
  | arms => exact .inl (.ofKeys rfl rfl rfl rfl)
  | startsScan hen =>
    rcases startScan_cases s with ⟨-, heq⟩ | ⟨hne, heq⟩ <;> rw [heq]
    · exact .inl (.ofKeys rfl rfl rfl rfl)
    · exact .inr (.inl ⟨rfl, hen, BitVec.toNat_pos_of_ne_zero hne, rfl⟩)
  | returns hen => exact .inr (.inr (.inl ⟨rfl, hen, rfl⟩))
  | evaluates r lv hen hr => exact .inr (.inr (.inr ⟨rfl, hen, r, lv, hr, rfl⟩))
  | faults _ c => exact .inl (.ofKeys (by simp) (by simp) (by simp) (by simp))

/-- From `r` to `r'`, the fields that REGISTER takes from the operand ports are the same (R36, R37). -/
structure SameOperands (r r' : KeyRecord) : Prop where
  pin       : r'.pin = r.pin
  onPress   : r'.onPress = r.onPress
  onRelease : r'.onRelease = r.onRelease

/-- From `s` to `t`, key CURSOR got a record with the operands of `r`, and the sequencer advanced or called back
(R157, R159). -/
def EvaluationOf (s : State) (r : KeyRecord) (t : State) : Prop :=
  ∃ r', SameOperands r r' ∧
    (t = (s.writeSlot s.cursor r').advance ∨
     ∃ nxt kind hd, t = State.emitEvent { s.writeSlot s.cursor r' with pendingNext := nxt } kind hd)

theorem notify_evaluationOf (s : State) (kind : EventKind) (handle : Option CbRef) {r r' : KeyRecord} (nxt : KeyState)
    (hsame : SameOperands r r') : EvaluationOf s r (s.notify kind handle r' nxt) := by
  rcases notify_cases s kind handle r' nxt with ⟨-, heq⟩ | ⟨hd, -, heq⟩ <;> rw [heq]
  · exact ⟨{ r' with state := nxt }, ⟨hsame.pin, hsame.onPress, hsame.onRelease⟩, .inl rfl⟩
  · exact ⟨r', hsame, .inr ⟨nxt, kind, hd, rfl⟩⟩

theorem applyEntry_evaluationOf (s : State) (e : RomEntry) (r : KeyRecord) : EvaluationOf s r (s.applyEntry e r) := by
  rcases applyEntry_cases s e r with ⟨-, heq⟩ | ⟨-, -, heq⟩ | ⟨-, -, heq⟩ | ⟨-, -, heq⟩ <;> rw [heq]
  · exact ⟨r, ⟨rfl, rfl, rfl⟩, .inl rfl⟩
  · exact ⟨{ r with state := e.next }, ⟨rfl, rfl, rfl⟩, .inl rfl⟩
  · exact notify_evaluationOf s _ _ _ ⟨rfl, rfl, rfl⟩
  · exact notify_evaluationOf s _ _ _ ⟨rfl, rfl, rfl⟩

theorem applyEntry_read (s : State) (e : RomEntry) (r : KeyRecord) : ∃ r', SameOperands r r' ∧
    ∀ i, Registry.read (s.applyEntry e r).keys i = if i = s.cursor.toNat then some r' else Registry.read s.keys i := by
  obtain ⟨r', hsame, heq | ⟨nxt, kind, hd, heq⟩⟩ := applyEntry_evaluationOf s e r <;>
    exact ⟨r', hsame, fun i => by simp [heq, Registry.read_write]⟩

theorem applyEntry_env (s : State) (e : RomEntry) (r : KeyRecord) : (s.applyEntry e r).env = s.env := by
  obtain ⟨r', -, heq | ⟨nxt, kind, hd, heq⟩⟩ := applyEntry_evaluationOf s e r <;> simp [heq]

/-- After an evaluation key CURSOR waits for its callback, or the sequencer has gone on (R157, R206). -/
theorem applyEntry_sequencer (s : State) (e : RomEntry) (r : KeyRecord) :
    ((s.applyEntry e r).phase = .waitCb ∧ (s.applyEntry e r).cursor = s.cursor) ∨ Advanced s (s.applyEntry e r) := by
  obtain ⟨r', -, heq | ⟨nxt, kind, hd, heq⟩⟩ := applyEntry_evaluationOf s e r <;> rw [heq]
  · exact .inr (advance_advanced s _ rfl rfl)
  · exact .inl ⟨rfl, rfl⟩

/-- The return from a callback writes STATE alone, of key CURSOR (R38, R198). -/
theorem returnFromCallback_read {s : State} {i : Nat} {r : KeyRecord} (hr : Registry.read s.keys i = some r) :
    Registry.read s.returnFromCallback.keys i =
      some (if i = s.cursor.toNat then { r with state := s.pendingNext } else r) := by
  rw [Registry.read_eq_some] at hr ⊢
  rw [returnFromCallback_find, hr]
  split <;> rfl

theorem returnFromCallback_env (s : State) : s.returnFromCallback.env = s.env := by
  rw [returnFromCallback_frame]

/-- Settles O32, by what each effect does to the scan: only an evaluation and the return from a callback write a live
slot, and both write slot CURSOR. -/
theorem recordsChangeOnlyByTheScan : Obligations.RecordsChangeOnlyByTheScan := by
  intro s t i r hinv hstep hreset hr
  obtain ⟨p, e, -, -, hblock⟩ := step_blockStep hstep
  rcases hblock.scan_cases (hinv.anyWorld p e) hreset with hstands | ⟨-, -, -, rfl⟩ | ⟨hturn, hen, rfl⟩ |
    ⟨hturn, hen, q, lv, hq, rfl⟩
  · exact ⟨r, hstands.record i r hr, rfl, rfl, rfl, fun hne => absurd rfl hne⟩
  · exact ⟨r, hr, rfl, rfl, rfl, fun hne => absurd rfl hne⟩
  · refine ⟨_, returnFromCallback_read hr, ?_⟩
    by_cases hi : i = s.cursor.toNat
    · rw [if_pos hi]
      exact ⟨rfl, rfl, rfl, fun _ => ⟨hi, .inr ⟨hturn, ((cbEnabled_iff _).mp hen).1, rfl⟩⟩⟩
    · rw [if_neg hi]
      exact ⟨rfl, rfl, rfl, fun hne => absurd rfl hne⟩
  · obtain ⟨r', hsame, hread⟩ := applyEntry_read (State.takeDraw { s with port := p, env := e } q.pin)
      (romRead (romAddr q.state lv)) { q with lastSample := lv }
    rw [hread i]
    by_cases hi : i = s.cursor.toNat
    · subst hi
      cases hr.symm.trans hq
      exact ⟨r', if_pos rfl, hsame.pin, hsame.onPress, hsame.onRelease,
        fun _ => ⟨rfl, .inl ⟨hturn, ((engineEnabled_iff _).mp hen).1⟩⟩⟩
    · exact ⟨r, (if_neg hi).trans hr, rfl, rfl, rfl, fun hne => absurd rfl hne⟩

/-- ENGINE's step where slot CURSOR holds a record: its pin is read, and the ROM entry is applied (R36, R159). -/
theorem step_engine_of_record {s : State} {r : KeyRecord} (hturn : s.env.turnAt 0 = .engine)
    (hen : s.engineEnabled = true) (hr : s.slot s.cursor = some r) :
    step s = .next ((s.takeTurn.takeDraw r.pin).applyEntry (romRead (romAddr r.state (s.env.levelAt r.pin 0)))
      { r with lastSample := s.env.levelAt r.pin 0 }) := by
  have hr' : s.takeTurn.slot s.cursor = some r := hr
  have heval := exec_row_of_record (s := s.takeTurn.takeDraw r.pin) hen hr (s.env.levelAt r.pin 0)
  simpa [step, hturn, runTurn, engineTurn, hen, evalKey, hr', Env.levelAt] using heval

/-- Settles O46: ENGINE's enabled step is an evaluation, and of the other effects only the start of a scan and the
return from a callback move the sequencer. -/
theorem scanGoesOnInOrderInEveryStep : Obligations.ScanGoesOnInOrderInEveryStep := by
  intro s t hinv hstep hreset
  refine ⟨fun hturn hrun hfaulted => ?_, fun hother => ?_⟩
  · have hen : s.engineEnabled = true := (engineEnabled_iff s).mpr ⟨hrun, hfaulted⟩
    obtain ⟨r, hr⟩ := hinv.exists_cursor_record hen
    cases (step_engine_of_record hturn hen hr).symm.trans hstep
    simp only [applyEntry_env]
    exact ⟨rfl, ⟨r, hr, rfl⟩, applyEntry_sequencer (s.takeTurn.takeDraw r.pin) _ _⟩
  · obtain ⟨p, e, hdraw, hasked, hblock⟩ := step_blockStep hstep
    rcases hblock.scan_cases (hinv.anyWorld p e) hreset with hstands | ⟨hturn, hen, hpos, rfl⟩ | ⟨hturn, hen, rfl⟩ |
      ⟨hturn, hen, -⟩
    · rw [hstands.env]
      exact ⟨hdraw, hasked, .inl ⟨hstands.phase, hstands.cursor⟩⟩
    · exact ⟨hdraw, hasked, .inr (.inl ⟨hturn, ((tickEnabled_iff _).mp hen).2.1, hpos, rfl, rfl⟩)⟩
    · rw [returnFromCallback_env]
      exact ⟨hdraw, hasked, .inr (.inr ⟨hturn, ((cbEnabled_iff _).mp hen).1, advance_advanced s _ rfl rfl⟩)⟩
    · obtain ⟨hrun, hfaulted⟩ := (engineEnabled_iff _).mp hen
      rcases hother with hother | hother | hother
      · exact absurd hturn hother
      · exact absurd hrun hother
      · exact absurd hother (by simp [show s.faulted = false from hfaulted])

/-! ### LAST_SAMPLE is write-only -/

/-- A record with its LAST_SAMPLE forgotten. -/
def KeyRecord.forgetSample (r : KeyRecord) : KeyRecord := { r with lastSample := .low }

section
variable (s : State)

@[simp] theorem forgetSamples_armed : s.forgetSamples.armed = s.armed := rfl
@[simp] theorem forgetSamples_cursor : s.forgetSamples.cursor = s.cursor := rfl
@[simp] theorem forgetSamples_port : s.forgetSamples.port = s.port := rfl
@[simp] theorem forgetSamples_env : s.forgetSamples.env = s.env := rfl
@[simp] theorem hostEnabled_forgetSamples : s.forgetSamples.hostEnabled = s.hostEnabled := rfl
@[simp] theorem tickEnabled_forgetSamples : s.forgetSamples.tickEnabled = s.tickEnabled := rfl
@[simp] theorem engineEnabled_forgetSamples : s.forgetSamples.engineEnabled = s.engineEnabled := rfl
@[simp] theorem cbEnabled_forgetSamples : s.forgetSamples.cbEnabled = s.cbEnabled := rfl

@[simp] theorem slot_forgetSamples (i : Byte) : s.forgetSamples.slot i = (s.slot i).map KeyRecord.forgetSample :=
  read_mapRecord s.keys i.toNat KeyRecord.forgetSample

/-- Forgetting twice is forgetting once. -/
@[simp] theorem forgetSamples_forgetSamples : s.forgetSamples.forgetSamples = s.forgetSamples := by
  have hslot (v : Slot) : (v.mapRecord KeyRecord.forgetSample).mapRecord KeyRecord.forgetSample =
      v.mapRecord KeyRecord.forgetSample := by cases v <;> rfl
  unfold State.forgetSamples
  simp only [List.map_map]
  congr 1
  refine List.map_congr_left fun p _ => ?_
  exact congrArg (Prod.mk p.1) (hslot p.2)

/-! Each operation, from a state with the samples forgotten: the same, with the samples forgotten. -/

theorem writeSlot_forgetSamples (i : Byte) (r : KeyRecord) :
    (s.writeSlot i r).forgetSamples = s.forgetSamples.writeSlot i r.forgetSample := by
  unfold State.writeSlot State.forgetSamples
  simp only [mapRecord_write]
  rfl

theorem writeState_forgetSamples (i : Byte) (st : KeyState) :
    (s.writeState i st).forgetSamples = s.forgetSamples.writeState i st := by
  have hslot (v : Option Slot) : (Slot.withState v st).mapRecord KeyRecord.forgetSample =
      Slot.withState (v.map (Slot.mapRecord · KeyRecord.forgetSample)) st := by
    rcases v with - | - | - <;> rfl
  have hkeys := mapRecord_write s.keys i.toNat (Slot.withState (Registry.find s.keys i.toNat) st) KeyRecord.forgetSample
  rw [hslot, ← find_mapRecord] at hkeys
  exact congrArg (fun keys => { s with keys := keys }) hkeys

@[simp] theorem raiseFault_forgetSamples (c : FaultCause) :
    (s.raiseFault c).forgetSamples = s.forgetSamples.raiseFault c := by
  unfold State.raiseFault
  exact apply_ite State.forgetSamples ..

@[simp] theorem readNoValue_forgetSamples : s.readNoValue.forgetSamples = s.forgetSamples.readNoValue :=
  raiseFault_forgetSamples s _

@[simp] theorem advance_forgetSamples : s.advance.forgetSamples = s.forgetSamples.advance := by
  unfold State.advance
  exact apply_ite State.forgetSamples ..

theorem commit_forgetSamples (r : KeyRecord) (nxt : KeyState) :
    (s.commit r nxt).forgetSamples = s.forgetSamples.commit r.forgetSample nxt := by
  unfold State.commit
  rw [advance_forgetSamples, writeSlot_forgetSamples]
  rfl

theorem notify_forgetSamples (kind : EventKind) (handle : Option CbRef) (r : KeyRecord) (nxt : KeyState) :
    (s.notify kind handle r nxt).forgetSamples = s.forgetSamples.notify kind handle r.forgetSample nxt := by
  cases handle with
  | none => exact commit_forgetSamples s r nxt
  | some hd =>
    have hwritten := writeSlot_forgetSamples s s.cursor r
    exact congrArg (fun t => State.emitEvent { t with pendingNext := nxt } kind hd) hwritten

@[simp] theorem applyEntry_forgetSamples (e : RomEntry) (r : KeyRecord) :
    (s.applyEntry e r).forgetSamples = s.forgetSamples.applyEntry e r.forgetSample := by
  unfold State.applyEntry
  split
  · cases e.action with
    | none => exact commit_forgetSamples s r e.next
    | markPressed => exact notify_forgetSamples s ..
    | clearPressed => exact notify_forgetSamples s ..
  · rw [advance_forgetSamples, writeSlot_forgetSamples]
    rfl

@[simp] theorem returnFromCallback_forgetSamples :
    s.returnFromCallback.forgetSamples = s.forgetSamples.returnFromCallback := by
  unfold State.returnFromCallback
  rw [advance_forgetSamples]
  exact congrArg (fun t => State.advance { t with pendingEvt := none, response := none })
    (writeState_forgetSamples s s.cursor s.pendingNext)

@[simp] theorem register_forgetSamples : s.register.forgetSamples = s.forgetSamples.register := by
  unfold State.register
  have hwritten := congrArg (fun t => State.respond { t with count := s.count + 1#8 } s.count)
    (writeSlot_forgetSamples s s.count s.newRecord)
  rw [apply_ite State.forgetSamples]
  exact congrArg (ite (s.count = s.params.cap) (s.forgetSamples.respond regFull)) hwritten

@[simp] theorem query_forgetSamples (idx : Byte) : (s.query idx).forgetSamples = s.forgetSamples.query idx := by
  unfold State.query
  rw [apply_ite State.forgetSamples, slot_forgetSamples]
  cases s.slot idx with
  | none => rw [readNoValue_forgetSamples]; rfl
  | some r => rfl

@[simp] theorem startScan_forgetSamples : s.startScan.forgetSamples = s.forgetSamples.startScan := by
  unfold State.startScan
  exact apply_ite State.forgetSamples ..

/-! Each instruction and each turn, in the sense of the obligation. -/

@[simp] theorem forgetSamplesOutcome_next : forgetSamplesOutcome (.next s) = .next s.forgetSamples := rfl

theorem execRegister_forgetSamples :
    forgetSamplesOutcome (execRegister s.forgetSamples) = forgetSamplesOutcome (execRegister s) := by
  unfold execRegister
  rw [forgetSamples_port, forgetSamples_armed]
  cases s.port.agent with
  | host => cases s.armed <;> simp
  | cb => simp
  | tick => rfl

theorem execIspressed_forgetSamples (idx : Byte) :
    forgetSamplesOutcome (execIspressed idx s.forgetSamples) = forgetSamplesOutcome (execIspressed idx s) := by
  unfold execIspressed
  rw [forgetSamples_port]
  cases s.port.agent with
  | host => simp
  | cb => simp
  | tick => rfl

theorem execArm_forgetSamples :
    forgetSamplesOutcome (execArm s.forgetSamples) = forgetSamplesOutcome (execArm s) := by
  unfold execArm
  rw [forgetSamples_port]
  cases s.port.agent with
  | host =>
    exact congrArg (fun t => Host.Outcome.next { t with armed := true, response := none })
      (forgetSamples_forgetSamples s)
  | cb => simp
  | tick => rfl

theorem execScantick_forgetSamples :
    forgetSamplesOutcome (execScantick s.forgetSamples) = forgetSamplesOutcome (execScantick s) := by
  unfold execScantick
  rw [forgetSamples_port, tickEnabled_forgetSamples]
  cases s.port.agent with
  | host => simp
  | cb => simp
  | tick => cases s.tickEnabled <;> simp

theorem execCbdone_forgetSamples :
    forgetSamplesOutcome (execCbdone s.forgetSamples) = forgetSamplesOutcome (execCbdone s) := by
  unfold execCbdone
  rw [forgetSamples_port, cbEnabled_forgetSamples]
  cases s.port.agent with
  | host => simp
  | cb => cases s.cbEnabled <;> simp
  | tick => rfl

/-- An evaluation overwrites the LAST_SAMPLE of the record it has read (R159). -/
theorem evalEntry_forgetSamples (a : RomAddr) (lv : Level) :
    forgetSamplesOutcome (evalEntry a lv s.forgetSamples) = forgetSamplesOutcome (evalEntry a lv s) := by
  unfold evalEntry
  rw [engineEnabled_forgetSamples, forgetSamples_cursor, slot_forgetSamples]
  split
  · cases s.slot s.cursor with
    | none => simp
    | some r => simp [KeyRecord.forgetSample]
  · rfl

theorem exec_forgetSamples (i : Instr) :
    forgetSamplesOutcome (exec i s.forgetSamples) = forgetSamplesOutcome (exec i s) := by
  cases i with
  | register => exact execRegister_forgetSamples s
  | scantick => exact execScantick_forgetSamples s
  | ispressed idx => exact execIspressed_forgetSamples s idx
  | arm => exact execArm_forgetSamples s
  | cbdone => exact execCbdone_forgetSamples s
  | tReleasedLow | tReleasedHigh | tPressShakeLow | tPressShakeHigh
  | tPressedLow | tPressedHigh | tReleaseShakeLow | tReleaseShakeHigh => exact evalEntry_forgetSamples s _ _

theorem issue_forgetSamples (a : Issuer) (c : Command) :
    forgetSamplesOutcome (issue a c s.forgetSamples) = forgetSamplesOutcome (issue a c s) := by
  unfold issue
  cases decode (.cmd c.word) with
  | legal i => exact exec_forgetSamples (s.withPort a c) i
  | illegal why =>
    have hfault := raiseFault_forgetSamples (s.withPort a c) .illegalCommand
    have htwice := raiseFault_forgetSamples (s.withPort a c).forgetSamples .illegalCommand
    rw [forgetSamples_forgetSamples] at htwice
    exact congrArg Host.Outcome.next (htwice.trans hfault.symm)

theorem passes_forgetSamples :
    forgetSamplesOutcome (.next s.forgetSamples) = forgetSamplesOutcome (.next s) :=
  congrArg Host.Outcome.next (forgetSamples_forgetSamples s)

theorem hostTurn_forgetSamples :
    forgetSamplesOutcome (hostTurn s.forgetSamples) = forgetSamplesOutcome (hostTurn s) := by
  unfold hostTurn
  rw [hostEnabled_forgetSamples, forgetSamples_env]
  split
  · cases s.env.hostProg with
    | nil => exact passes_forgetSamples s
    | cons c rest => exact issue_forgetSamples s.takeHostWord .host c
  · exact passes_forgetSamples s

theorem tickTurn_forgetSamples :
    forgetSamplesOutcome (tickTurn s.forgetSamples) = forgetSamplesOutcome (tickTurn s) := by
  unfold tickTurn
  rw [tickEnabled_forgetSamples]
  split
  · exact issue_forgetSamples s .tick _
  · exact passes_forgetSamples s

theorem cbTurn_forgetSamples :
    forgetSamplesOutcome (cbTurn s.forgetSamples) = forgetSamplesOutcome (cbTurn s) := by
  unfold cbTurn
  rw [cbEnabled_forgetSamples, forgetSamples_env]
  split
  · cases s.env.cbProg with
    | nil => exact passes_forgetSamples s
    | cons w rest => exact issue_forgetSamples s.takeCbWord .cb (bareWord w)
  · exact passes_forgetSamples s

theorem engineTurn_forgetSamples :
    forgetSamplesOutcome (engineTurn s.forgetSamples) = forgetSamplesOutcome (engineTurn s) := by
  unfold engineTurn evalKey
  rw [engineEnabled_forgetSamples, forgetSamples_cursor, slot_forgetSamples]
  split
  · cases s.slot s.cursor with
    | none => simp
    | some r => exact exec_forgetSamples (s.takeDraw r.pin) _
  · exact passes_forgetSamples s

theorem runTurn_forgetSamples (turn : Turn) :
    forgetSamplesOutcome (runTurn turn s.forgetSamples) = forgetSamplesOutcome (runTurn turn s) := by
  cases turn with
  | host => exact hostTurn_forgetSamples s
  | tick => exact tickTurn_forgetSamples s
  | engine => exact engineTurn_forgetSamples s
  | cb => exact cbTurn_forgetSamples s
  | reset => rfl

end

/-- Settles O36: no turn's effect depends on a LAST_SAMPLE, and the turn itself is the world's. -/
theorem lastSampleIsNeverRead : Obligations.LastSampleIsNeverRead := fun s =>
  runTurn_forgetSamples s.takeTurn (s.env.turnAt 0)

end Sys2Proof.Machine


/-! The encoding obligations of 30_encoding.md, from the opcode map said once as a relation on the fields of a command
word; and ISPRESSED, from what each kind of index answers. -/

namespace Sys2Proof.Machine

/-! ### The fields of a command word (R100) -/

/-- The three fields are the whole word. -/
theorem fields_append (w : CmdWord) : opField w ++ rsvField w ++ idxField w = w := by
  unfold opField rsvField idxField
  simp only [BitVec.extractLsb'_append_extractLsb'_eq_extractLsb', BitVec.extractLsb'_eq_self]

section
variable (op rsv : BitVec 4) (idx : Byte)

@[simp] theorem opField_append : opField (op ++ rsv ++ idx) = op :=
  (BitVec.extractLsb'_append_eq_of_le (by decide)).trans BitVec.extractLsb'_append_eq_left

@[simp] theorem rsvField_append : rsvField (op ++ rsv ++ idx) = rsv :=
  (BitVec.extractLsb'_append_eq_of_le (by decide)).trans BitVec.extractLsb'_append_eq_right

@[simp] theorem idxField_append : idxField (op ++ rsv ++ idx) = idx :=
  BitVec.extractLsb'_append_eq_right

end

section
variable (w : CmdWord)

theorem opField_toNat : (opField w).toNat = w.toNat / 4096 := by
  have := w.isLt
  simp only [opField, BitVec.extractLsb'_toNat, Nat.shiftRight_eq_div_pow]
  omega

theorem rsvField_toNat : (rsvField w).toNat = w.toNat / 256 % 16 := by
  simp [rsvField, Nat.shiftRight_eq_div_pow]

theorem idxField_toNat : (idxField w).toNat = w.toNat % 256 := by
  simp [idxField]

end

theorem opField_eq_ofNat {w : CmdWord} {n : Nat} (h : (opField w).toNat = n) : opField w = BitVec.ofNat 4 n := by
  simp [← h]

/-! ### The opcode map (R101 to R106, R118) -/

/-- The rows of the opcode map: the command that `OP` and `IDX` name where `RSV = 0`. -/
inductive OpcodeMap : Instr → BitVec 4 → Byte → Prop
  | register : OpcodeMap .register 1#4 0#8
  | scantick : OpcodeMap .scantick 2#4 0#8
  | ispressed (idx : Byte) : OpcodeMap (.ispressed idx) 3#4 idx
  | arm : OpcodeMap .arm 4#4 0#8
  | cbdone : OpcodeMap .cbdone 5#4 0#8

/-- A command without an operand is legal where `IDX` is 0. -/
theorem bareCommand_idx {i j : Instr} {w : CmdWord} (h : bareCommand i w = .legal j) : idxField w = 0#8 := by
  unfold bareCommand at h
  split at h
  · assumption
  · cases h

/-- The decoder reads the opcode map, and refuses `RSV ≠ 0`. -/
theorem decodeCmd_eq_legal {w : CmdWord} {i : Instr} :
    decodeCmd w = .legal i ↔ rsvField w = 0#4 ∧ OpcodeMap i (opField w) (idxField w) := by
  constructor
  · intro h
    unfold decodeCmd at h
    split at h
    · cases h
    · refine ⟨not_not.mp ‹_›, ?_⟩
      split at h
      case h_3 hop =>
        cases h
        rw [opField_eq_ofNat hop]
        exact .ispressed _
      case h_6 => cases h
      all_goals
        rename_i hop
        rw [bareCommand_legal h, bareCommand_idx h, opField_eq_ofNat hop]
        constructor
  · rintro ⟨hrsv, hmap⟩
    generalize hop : opField w = op at hmap
    generalize hidx : idxField w = idx at hmap
    cases hmap <;> simp [decodeCmd, bareCommand, hrsv, hop, hidx]

/-- The encoder writes the opcode map, with `RSV = 0`. -/
theorem OpcodeMap.encode_eq {i : Instr} {op : BitVec 4} {idx : Byte} (h : OpcodeMap i op idx) :
    encode i = .cmd (op ++ 0#4 ++ idx) := by
  cases h <;> rfl

/-- An instruction is a command of the opcode map or a row of the transition ROM (R101, R116). -/
theorem opcodeMap_or_decodeEntry (i : Instr) : (∃ op idx, OpcodeMap i op idx) ∨ ∃ a, decodeEntry a = i := by
  cases i with
  | register => exact .inl ⟨_, _, .register⟩
  | scantick => exact .inl ⟨_, _, .scantick⟩
  | ispressed idx => exact .inl ⟨_, _, .ispressed idx⟩
  | arm => exact .inl ⟨_, _, .arm⟩
  | cbdone => exact .inl ⟨_, _, .cbdone⟩
  | tReleasedLow => exact .inr ⟨0b000#3, rfl⟩
  | tReleasedHigh => exact .inr ⟨0b001#3, rfl⟩
  | tPressShakeLow => exact .inr ⟨0b010#3, rfl⟩
  | tPressShakeHigh => exact .inr ⟨0b011#3, rfl⟩
  | tPressedLow => exact .inr ⟨0b100#3, rfl⟩
  | tPressedHigh => exact .inr ⟨0b101#3, rfl⟩
  | tReleaseShakeLow => exact .inr ⟨0b110#3, rfl⟩
  | tReleaseShakeHigh => exact .inr ⟨0b111#3, rfl⟩

/-- The `OP` and `IDX` of the opcode map. -/
theorem exists_opcodeMap {op : BitVec 4} {idx : Byte} :
    (∃ i, OpcodeMap i op idx) ↔ 1 ≤ op.toNat ∧ op.toNat ≤ 5 ∧ (idx.toNat = 0 ∨ op.toNat = 3) := by
  constructor
  · rintro ⟨i, h⟩
    cases h <;> simp
  · rintro ⟨hlo, hhi, hidx⟩
    by_cases hop : op = 3#4
    · exact ⟨.ispressed idx, hop ▸ .ispressed idx⟩
    · have hzero : idx = 0#8 := by bv_omega
      have hrow : op = 1#4 ∨ op = 2#4 ∨ op = 4#4 ∨ op = 5#4 := by bv_omega
      rw [hzero]
      rcases hrow with rfl | rfl | rfl | rfl
      · exact ⟨_, .register⟩
      · exact ⟨_, .scantick⟩
      · exact ⟨_, .arm⟩
      · exact ⟨_, .cbdone⟩

/-! ### Encodings: the obligations -/

/-- Settles O1: a command's word has the fields of its row of the opcode map, and a ROM row is the one of its address. -/
theorem decodeOfEncodeIsTheInstruction : Obligations.DecodeOfEncodeIsTheInstruction := by
  intro i _
  rcases opcodeMap_or_decodeEntry i with ⟨op, idx, hmap⟩ | ⟨a, rfl⟩
  · rw [hmap.encode_eq]
    exact decodeCmd_eq_legal.mpr (by simpa using hmap)
  · rw [encode_decodeEntry]
    rfl

/-- Settles O2: the encoder puts the three fields of a legal word together again. -/
theorem legalCodesHaveOneMeaning : Obligations.LegalCodesHaveOneMeaning := by
  intro c i h
  cases c with
  | cmd w =>
    obtain ⟨hrsv, hmap⟩ := decodeCmd_eq_legal.mp h
    rw [hmap.encode_eq, ← hrsv, fields_append]
  | rom a =>
    cases h
    exact encode_decodeEntry a

/-- Settles O3: the rows of the opcode map, in the fields' numbers. -/
theorem legalWordsAreThoseOfTheOpcodeMap : Obligations.LegalWordsAreThoseOfTheOpcodeMap := by
  intro w
  simp only [decodeCmd_eq_legal, exists_and_left, exists_opcodeMap, BitVec.toNat_eq, rsvField_toNat, opField_toNat,
    idxField_toNat, BitVec.toNat_ofNat, Nat.zero_mod]

/-- Settles O4: ten closed codes, each run through the decoder. -/
theorem wordsOfTheSpecDecode : Obligations.WordsOfTheSpecDecode := by
  unfold Obligations.WordsOfTheSpecDecode
  decide

/-! ### The operand ports (R102) -/

theorem pinOperand_of_lt {w h : Nat} (hlt : h < 2 ^ w) : pinOperand w h = ⟨h⟩ := by
  rw [pinOperand, Nat.mod_eq_of_lt hlt]

/-- The handle's bits alone leave the present bit 0. -/
theorem cbOperand_of_lt {w h : Nat} (hlt : h < 2 ^ w) : cbOperand w h = none := by
  simp [cbOperand, Nat.div_eq_of_lt hlt]

/-- The present bit set above a handle's bits. -/
theorem cbOperand_present {w h : Nat} (hlt : h < 2 ^ w) : cbOperand w (2 ^ w + h) = some ⟨h⟩ := by
  have hpresent : (2 ^ w + h) / 2 ^ w = 1 := by
    rw [Nat.add_div_left h (Nat.two_pow_pos w), Nat.div_eq_of_lt hlt]
  simp [cbOperand, hpresent, Nat.mod_eq_of_lt hlt]

/-- Settles O5, one clause per form of operand: the pin, an absent callback, a present one. -/
theorem operandPortFields : Obligations.OperandPortFields := fun _ _ hlt =>
  ⟨pinOperand_of_lt hlt, cbOperand_of_lt hlt, cbOperand_present hlt⟩

/-! ### ISPRESSED (R188, R189) -/

theorem query_of_record {s : State} {idx : Byte} {r : KeyRecord} (hlive : idx.toNat < s.count.toNat)
    (hr : s.slot idx = some r) : s.query idx = s.respond (flagByte r.isPressed) := by
  simp [State.query, hlive, hr]

theorem query_of_count_le {s : State} {idx : Byte} (hidx : s.count.toNat ≤ idx.toNat) :
    s.query idx = s.respond 0x00#8 := by
  simp [State.query, Nat.not_lt.mpr hidx, flagByte]

/-- Settles O7: HOST and CB alike ask the registry, which answers by the kind of index. -/
theorem ispressedAnswersFlagOrZero : Obligations.IspressedAnswersFlagOrZero := by
  intro s idx hissuer
  have hagent : s.port.agent ≠ .tick := by rcases hissuer with h | h <;> simp [h]
  rw [exec_ispressed hagent]
  refine ⟨fun r hlive hr => ?_, fun hidx => ?_⟩
  · rw [query_of_record hlive hr]
    rfl
  · rw [query_of_count_le hidx]
    rfl

end Sys2Proof.Machine

/-! The debounce engine of 40_debounce_engine.md: the lookup and the ROM, the eight rows on key CURSOR, and the history
of one key under a sequence of samples. -/

namespace Sys2Proof.Machine

/-! ### The lookup and the ROM (R141, R142) -/

/-- `T` is the ROM entry at the pair's address, where that entry is a hit. -/
theorem lookup_eq_romRead (st : KeyState) (lv : Level) :
    lookup st lv = if (romRead (romAddr st lv)).hit
      then some ((romRead (romAddr st lv)).next, (romRead (romAddr st lv)).action) else none := by
  cases st <;> cases lv <;> rfl

/-- Settles O16: the six rows are compared pairwise, and the ROM is read at each of its eight addresses. -/
theorem lookupIsTheRom : Obligations.LookupIsTheRom :=
  ⟨by decide, lookup_eq_romRead⟩

/-- Applying the addressed ROM entry is R159's case split on `T`. -/
theorem applyEntry_eq_evalKeyAsWritten (s : State) (lv : Level) (r : KeyRecord) :
    s.applyEntry (romRead (romAddr r.state lv)) { r with lastSample := lv } = s.evalKeyAsWritten lv r := by
  unfold State.evalKeyAsWritten
  rw [lookup_eq_romRead]
  obtain ⟨hit, nxt, action⟩ := romRead (romAddr r.state lv)
  cases hit with
  | false => rfl
  | true =>
    cases action with
    | none => rfl
    | markPressed => cases hd : r.onPress <;> simp only [State.applyEntry] <;> rfl
    | clearPressed => cases hd : r.onRelease <;> simp only [State.applyEntry] <;> rfl

/-- Settles O21: ENGINE's step applies the addressed ROM entry, which is the pseudocode's case. -/
theorem engineStepIsEvalKey : Obligations.EngineStepIsEvalKey := by
  intro s r hturn hrun hfaulted hr
  rw [step_engine_of_record hturn ((engineEnabled_iff s).mpr ⟨hrun, hfaulted⟩) hr, applyEntry_eq_evalKeyAsWritten]

/-! ### The rows on key CURSOR -/

/-- A row of the ROM, on a key in the row's state, applies the row's entry. -/
theorem exec_row {s : State} {r : KeyRecord} {i : Instr} {lv : Level} {e : RomEntry} (hrun : s.phase = .run)
    (hfaulted : s.faulted = false) (hr : s.slot s.cursor = some r)
    (hrow : i = decodeEntry (romAddr r.state lv) ∧ romRead (romAddr r.state lv) = e) :
    exec i s = .next (s.applyEntry e { r with lastSample := lv }) := by
  obtain ⟨rfl, rfl⟩ := hrow
  exact exec_row_of_record ((engineEnabled_iff s).mpr ⟨hrun, hfaulted⟩) hr lv

/-- From `s` to `t`, key CURSOR got `r`, the sequencer went on, and nothing else changed. -/
def WritesAndAdvances (s t : State) (r : KeyRecord) : Prop :=
  KeyWritten s t s.cursor r ∧ Advanced s t ∧ t = { s with keys := t.keys, cursor := t.cursor, phase := t.phase }

theorem commit_writesAndAdvances (s : State) (r : KeyRecord) (nxt : KeyState) :
    WritesAndAdvances s (s.commit r nxt) { r with state := nxt } :=
  ⟨commit_keyWritten s r nxt, advance_advanced s _ rfl rfl, commit_frame s r nxt⟩

/-- Settles O17: each row's entry is a hit without an action, which commits the next state. -/
theorem transitionsWithoutAction : Obligations.TransitionsWithoutAction := by
  rintro s r i _ nxt lv hmem hrun hfaulted hr rfl
  have hrow : i = decodeEntry (romAddr r.state lv) ∧ romRead (romAddr r.state lv) = ⟨true, nxt, .none⟩ := by
    generalize r.state = st at hmem ⊢
    simp only [List.mem_cons, Prod.mk.injEq, List.not_mem_nil, or_false] at hmem
    rcases hmem with ⟨rfl, rfl, rfl, rfl⟩ | ⟨rfl, rfl, rfl, rfl⟩ | ⟨rfl, rfl, rfl, rfl⟩ | ⟨rfl, rfl, rfl, rfl⟩ <;>
      exact ⟨rfl, rfl⟩
  exact ⟨_, exec_row hrun hfaulted hr hrow, commit_writesAndAdvances s { r with lastSample := lv } nxt⟩

/-- Settles O18: each row's entry is no hit, so the record is committed with the state it has. -/
theorem unmatchedPairsKeepTheState : Obligations.UnmatchedPairsKeepTheState := by
  rintro s r i _ lv hmem hrun hfaulted hr rfl
  have hrow : i = decodeEntry (romAddr r.state lv) ∧ romRead (romAddr r.state lv) = ⟨false, r.state, .none⟩ := by
    generalize r.state = st at hmem ⊢
    simp only [List.mem_cons, Prod.mk.injEq, List.not_mem_nil, or_false] at hmem
    rcases hmem with ⟨rfl, rfl, rfl⟩ | ⟨rfl, rfl, rfl⟩ <;> exact ⟨rfl, rfl⟩
  exact ⟨_, exec_row hrun hfaulted hr hrow, commit_writesAndAdvances s { r with lastSample := lv } r.state⟩

/-! ### The two actions (R153 to R158) -/

theorem KeyWritten.trans {s t u : State} {i : Byte} {q r : KeyRecord} (hst : KeyWritten s t i q)
    (htu : KeyWritten t u i r) : KeyWritten s u i r :=
  ⟨htu.1, fun j hj => (htu.2 j hj).trans (hst.2 j hj)⟩

/-- The callback call leaves the record with the new flag in slot CURSOR (R158). -/
theorem notify_some_keyWritten (s : State) (kind : EventKind) (hd : CbRef) (r : KeyRecord) (nxt : KeyState) :
    KeyWritten s (s.notify kind (some hd) r nxt) s.cursor r :=
  ⟨slot_writeSlot_self s s.cursor r, fun j hj => Registry.find_write_ne s.keys s.cursor.toNat j _ hj⟩

theorem exec_cbdone {s : State} (hagent : s.port.agent = .cb) (hen : s.cbEnabled = true) :
    exec .cbdone s = .next s.returnFromCallback := by
  simp [exec, execCbdone, hagent, hen]

/-- CBDONE in the callback wait that an action began commits the state write it put off (R158, R198). -/
theorem cbdone_of_notify {s : State} (hfaulted : s.faulted = false) (kind : EventKind) (hd : CbRef) (r : KeyRecord)
    (nxt : KeyState) (c : Command) : ∃ u, exec .cbdone ((s.notify kind (some hd) r nxt).withPort .cb c) = .next u ∧
      KeyWritten s u s.cursor { r with state := nxt } ∧ u.pendingEvt = none ∧ Advanced s u := by
  have hwritten := notify_some_keyWritten s kind hd r nxt
  have hslot : ((s.notify kind (some hd) r nxt).withPort .cb c).slot s.cursor = some r := hwritten.1
  have hen : ((s.notify kind (some hd) r nxt).withPort .cb c).cbEnabled = true := (cbEnabled_iff _).mpr ⟨rfl, hfaulted⟩
  refine ⟨_, exec_cbdone rfl hen, ?_⟩
  rw [returnFromCallback_of_slot _ r hslot]
  exact ⟨hwritten.trans (commit_keyWritten _ r nxt), advance_pendingEvt _, advance_advanced s _ rfl rfl⟩

/-- From `s`, instruction `i` leaves the record `r` with an action's flag written: without a handle it completes as one
write of STATE `nxt`; with one it emits the event, and CBDONE then writes STATE. -/
def PerformsAction (s : State) (i : Instr) (kind : EventKind) (handle : Option CbRef) (r : KeyRecord)
    (nxt : KeyState) : Prop :=
  (handle = none → ∃ t, exec i s = .next t ∧ WritesAndAdvances s t { r with state := nxt }) ∧
  (∀ hd, handle = some hd → ∃ t, exec i s = .next t ∧ KeyWritten s t s.cursor r ∧
    t = { s with keys := t.keys, phase := .waitCb, pendingNext := nxt,
                 pendingEvt := some { kind := kind, key := s.cursor, handle := hd } } ∧
    ∀ c, ∃ u, exec .cbdone (t.withPort .cb c) = .next u ∧ KeyWritten s u s.cursor { r with state := nxt } ∧
      u.pendingEvt = none ∧ Advanced s u)

/-- What a row that notifies comes to, by whether there is a handle. -/
theorem performsAction_of_notify {s : State} {i : Instr} {kind : EventKind} {handle : Option CbRef} {r : KeyRecord}
    {nxt : KeyState} (hfaulted : s.faulted = false) (hexec : exec i s = .next (s.notify kind handle r nxt)) :
    PerformsAction s i kind handle r nxt := by
  constructor
  · rintro rfl
    exact ⟨_, hexec, commit_writesAndAdvances s r nxt⟩
  · rintro hd rfl
    exact ⟨_, hexec, notify_some_keyWritten s kind hd r nxt, rfl, cbdone_of_notify hfaulted kind hd r nxt⟩

/-- Settles O19: the row's entry is mark-pressed, which notifies of a press. -/
theorem pressShakeLowMarksPressed : Obligations.PressShakeLowMarksPressed := by
  intro s r hrun hfaulted hr hstate
  have hrow : Instr.tPressShakeLow = decodeEntry (romAddr r.state .low) ∧
      romRead (romAddr r.state .low) = ⟨true, .pressed, .markPressed⟩ := by
    rw [hstate]
    exact ⟨rfl, rfl⟩
  exact performsAction_of_notify hfaulted (exec_row hrun hfaulted hr hrow)

/-- Settles O20: the row's entry is clear-pressed, which notifies of a release. -/
theorem releaseShakeHighClearsPressed : Obligations.ReleaseShakeHighClearsPressed := by
  intro s r hrun hfaulted hr hstate
  have hrow : Instr.tReleaseShakeHigh = decodeEntry (romAddr r.state .high) ∧
      romRead (romAddr r.state .high) = ⟨true, .released, .clearPressed⟩ := by
    rw [hstate]
    exact ⟨rfl, rfl⟩
  exact performsAction_of_notify hfaulted (exec_row hrun hfaulted hr hrow)

/-! ### One evaluation of a key -/

section
variable {r : KeyRecord} {lv : Level}

theorem evaluated_state : (r.evaluated lv).state = ((lookup r.state lv).map Prod.fst).getD r.state := by
  unfold KeyRecord.evaluated
  split <;> simp [*]

/-- The flag after an evaluation, by the action performed (R153, R155). -/
theorem evaluated_isPressed : (r.evaluated lv).isPressed =
    match r.actionAt lv with | .none => r.isPressed | .markPressed => true | .clearPressed => false := by
  unfold KeyRecord.evaluated KeyRecord.actionAt
  rcases lookup r.state lv with - | ⟨nxt, action⟩
  · rfl
  · cases action <;> rfl

/-- Where `T` is none, the sample alone is stored (R144, R147). -/
theorem evaluated_of_lookup_none (h : lookup r.state lv = none) : r.evaluated lv = { r with lastSample := lv } := by
  simp only [KeyRecord.evaluated, h]

theorem evaluated_eq_pressShake : (r.evaluated lv).state = .pressShake ↔ r.state = .released ∧ lv = .low := by
  rw [evaluated_state]
  generalize r.state = st
  cases st <;> cases lv <;> decide

theorem evaluated_eq_releaseShake : (r.evaluated lv).state = .releaseShake ↔ r.state = .pressed ∧ lv = .high := by
  rw [evaluated_state]
  generalize r.state = st
  cases st <;> cases lv <;> decide

theorem actionAt_eq_markPressed : r.actionAt lv = .markPressed ↔ r.state = .pressShake ∧ lv = .low := by
  unfold KeyRecord.actionAt
  generalize r.state = st
  cases st <;> cases lv <;> decide

theorem actionAt_eq_clearPressed : r.actionAt lv = .clearPressed ↔ r.state = .releaseShake ∧ lv = .high := by
  unfold KeyRecord.actionAt
  generalize r.state = st
  cases st <;> cases lv <;> decide

/-- The two actions are performed in the shake states only. -/
theorem actionAt_eq_none (hpress : r.state ≠ .pressShake) (hrelease : r.state ≠ .releaseShake) :
    r.actionAt lv = .none := by
  cases h : r.actionAt lv with
  | none => rfl
  | markPressed => exact absurd (actionAt_eq_markPressed.mp h).1 hpress
  | clearPressed => exact absurd (actionAt_eq_clearPressed.mp h).1 hrelease

/-- Once its state write is done, an evaluation leaves a flag that agrees with the state (R161). -/
theorem evaluated_flagAgrees (hflag : r.isPressed = r.state.isDown) :
    (r.evaluated lv).isPressed = (r.evaluated lv).state.isDown := by
  rw [evaluated_isPressed, evaluated_state, hflag]
  unfold KeyRecord.actionAt
  generalize r.state = st
  cases st <;> cases lv <;> rfl

/-- Each action turns the flag over, and no action leaves it (R153, R155, R161). -/
theorem actionAt_cases (hflag : r.isPressed = r.state.isDown) (lv : Level) :
    (r.actionAt lv = .none ∧ (r.evaluated lv).isPressed = r.isPressed) ∨
    (r.actionAt lv = .markPressed ∧ r.isPressed = false ∧ (r.evaluated lv).isPressed = true) ∨
    (r.actionAt lv = .clearPressed ∧ r.isPressed = true ∧ (r.evaluated lv).isPressed = false) := by
  rw [evaluated_isPressed]
  cases h : r.actionAt lv with
  | none => simp
  | markPressed => simp [hflag, (actionAt_eq_markPressed.mp h).1, KeyState.isDown]
  | clearPressed => simp [hflag, (actionAt_eq_clearPressed.mp h).1, KeyState.isDown]

/-! ### A sequence of samples -/

theorem actions_cons_of_none (h : r.actionAt lv = .none) (lvs : List Level) :
    r.actions (lv :: lvs) = (r.evaluated lv).actions lvs :=
  if_pos h

theorem actions_cons_of_action {a : Action} (h : r.actionAt lv = a) (ha : a ≠ .none) (lvs : List Level) :
    r.actions (lv :: lvs) = a :: (r.evaluated lv).actions lvs := by
  subst h
  exact if_neg ha

/-- Two equal samples of which the second performs an action. -/
theorem actions_pair {a : Action} (hfirst : r.actionAt lv = .none) (hsecond : (r.evaluated lv).actionAt lv = a)
    (ha : a ≠ .none) : r.actions [lv, lv] = [a] := by
  rw [actions_cons_of_none hfirst, actions_cons_of_action hsecond ha]
  rfl

/-- The last sample is evaluated on what the earlier ones left. -/
theorem after_concat (r : KeyRecord) (lvs : List Level) (lv : Level) :
    r.after (lvs ++ [lv]) = (r.after lvs).evaluated lv := by
  induction lvs generalizing r with
  | nil => rfl
  | cons l rest ih => exact ih (r.evaluated l)

theorem noTwoLow_cons {lvs : List Level} :
    noTwoLow (lv :: lvs) = true ↔ (lv = .low → lvs.head? ≠ some .low) ∧ noTwoLow lvs = true := by
  cases lv <;> simp [noTwoLow]

end

/-! ### The obligations on one key -/

/-- Settles O39: a shake state is entered from RELEASED or PRESSED only. -/
theorem shakeStateLastsOneEvaluation : Obligations.ShakeStateLastsOneEvaluation := by
  intro r lv hshake
  cases h : (r.evaluated lv).state with
  | released => exact .inl rfl
  | pressed => exact .inr rfl
  | pressShake => simp [(evaluated_eq_pressShake.mp h).1] at hshake
  | releaseShake => simp [(evaluated_eq_releaseShake.mp h).1] at hshake

/-- Settles O40: `T` is none at the steady level, and the shake states are entered at the opposite one. -/
theorem steadyLevelChangesNothing : Obligations.SteadyLevelChangesNothing := fun r =>
  ⟨fun h => ⟨evaluated_of_lookup_none (by rw [h]; rfl), evaluated_eq_pressShake.mpr ⟨h, rfl⟩⟩,
    fun h => ⟨evaluated_of_lookup_none (by rw [h]; rfl), evaluated_eq_releaseShake.mpr ⟨h, rfl⟩⟩⟩

/-- Settles O41: an action is performed in its shake state only, which the sample before must have entered. -/
theorem actionNeedsTwoEqualSamples : Obligations.ActionNeedsTwoEqualSamples := by
  intro r lvs a b hreleased
  rw [after_concat, actionAt_eq_markPressed, actionAt_eq_clearPressed, evaluated_eq_pressShake,
    evaluated_eq_releaseShake]
  exact ⟨actionAt_eq_none (by simp [hreleased]) (by simp [hreleased]), fun ⟨⟨_, ha⟩, hb⟩ => ⟨ha, hb⟩,
    fun ⟨⟨_, ha⟩, hb⟩ => ⟨ha, hb⟩⟩

/-- Settles O42: the first sample enters the shake state without an action, and the second performs the action. -/
theorem twoEqualSamplesAreAccepted : Obligations.TwoEqualSamplesAreAccepted := by
  refine fun r => ⟨fun h => ?_, fun h => ?_⟩
  · have hfirst : r.actionAt .low = .none := actionAt_eq_none (by simp [h]) (by simp [h])
    have hshake : (r.evaluated .low).state = .pressShake := evaluated_eq_pressShake.mpr ⟨h, rfl⟩
    have hsecond : (r.evaluated .low).actionAt .low = .markPressed := actionAt_eq_markPressed.mpr ⟨hshake, rfl⟩
    exact ⟨actions_pair hfirst hsecond nofun, evaluated_state.trans (by rw [hshake]; rfl),
      evaluated_isPressed.trans (by rw [hsecond])⟩
  · have hfirst : r.actionAt .high = .none := actionAt_eq_none (by simp [h]) (by simp [h])
    have hshake : (r.evaluated .high).state = .releaseShake := evaluated_eq_releaseShake.mpr ⟨h, rfl⟩
    have hsecond : (r.evaluated .high).actionAt .high = .clearPressed := actionAt_eq_clearPressed.mpr ⟨hshake, rfl⟩
    exact ⟨actions_pair hfirst hsecond nofun, evaluated_state.trans (by rw [hshake]; rfl),
      evaluated_isPressed.trans (by rw [hsecond])⟩

/-- A key that is up stays up without an action, where no two samples in a row are LOW and, in PRESS_SHAKE, the first is
not LOW. -/
theorem stays_up_of_noTwoLow {r : KeyRecord} {lvs : List Level} (hflag : r.isPressed = r.state.isDown)
    (hup : r.isPressed = false) (hquiet : noTwoLow lvs = true)
    (hshake : r.state = .pressShake → lvs.head? ≠ some .low) :
    r.actions lvs = [] ∧ (r.after lvs).isPressed = false := by
  induction lvs generalizing r with
  | nil => exact ⟨rfl, hup⟩
  | cons lv rest ih =>
    obtain ⟨hnext, hrest⟩ := noTwoLow_cons.mp hquiet
    rcases actionAt_cases hflag lv with ⟨hnone, hsame⟩ | ⟨hmark, -⟩ | ⟨-, hdown, -⟩
    · rw [actions_cons_of_none hnone]
      exact ih (evaluated_flagAgrees hflag) (hsame.trans hup) hrest fun h => hnext (evaluated_eq_pressShake.mp h).2
    · obtain ⟨hstate, hlow⟩ := actionAt_eq_markPressed.mp hmark
      exact absurd (congrArg some hlow) (hshake hstate)
    · simp [hup] at hdown

/-- Settles O43: from RELEASED such samples perform no action at all. -/
theorem noTwoLowNeverPresses : Obligations.NoTwoLowNeverPresses := by
  intro r lvs hreleased hup hquiet
  obtain ⟨hactions, hflag⟩ := stays_up_of_noTwoLow (r := r) (by rw [hup, hreleased]; rfl) hup hquiet
    (by simp [hreleased])
  exact ⟨by simp [hactions], hflag⟩

/-- The action that turns a flag over. -/
def nextAction (pressed : Bool) : Action := if pressed then .clearPressed else .markPressed

/-- From any flag that agrees with the state, the actions alternate, and their counts differ by the change of the
flag (R164). -/
theorem actions_alternate {r : KeyRecord} (hflag : r.isPressed = r.state.isDown) (lvs : List Level) :
    alternates (nextAction r.isPressed) (r.actions lvs) = true ∧
    (r.actions lvs).count .markPressed + r.isPressed.toNat =
      (r.actions lvs).count .clearPressed + (r.after lvs).isPressed.toNat := by
  induction lvs generalizing r with
  | nil => exact ⟨rfl, rfl⟩
  | cons lv rest ih =>
    obtain ⟨halt, hcount⟩ := ih (evaluated_flagAgrees hflag (lv := lv))
    rcases actionAt_cases hflag lv with ⟨haction, hafter⟩ | ⟨haction, hbefore, hafter⟩ | ⟨haction, hbefore, hafter⟩ <;>
      rw [hafter] at halt hcount
    · rw [actions_cons_of_none haction]
      exact ⟨halt, hcount⟩
    · rw [actions_cons_of_action haction nofun, hbefore]
      refine ⟨halt, ?_⟩
      simpa [KeyRecord.after] using hcount
    · rw [actions_cons_of_action haction nofun, hbefore]
      refine ⟨halt, ?_⟩
      simp [KeyRecord.after] at hcount ⊢
      omega

/-- Settles O44: RELEASED with the flag clear is a flag that agrees with the state. -/
theorem actionsAlternate : Obligations.ActionsAlternate := by
  intro r lvs hreleased hup
  have h := actions_alternate (r := r) (by rw [hup, hreleased]; rfl) lvs
  simpa [hup, nextAction, Bool.toNat, Bool.cond_eq_ite] using h

end Sys2Proof.Machine

/-! The key registry of 41_key_registry.md: what each command answers by its issuer, what a turn comes to by its agent's
enabling, and one whole scan. -/

namespace Sys2Proof.Machine

/-! ### Commands, by their issuer (R181) -/

section
variable {s : State}

/-- A breach raises its fault, and has no other effect (R232, R235 to R238). -/
theorem Breach.exec_eq {i : Instr} {c : FaultCause} (h : Breach s i c) : exec i s = .next (s.raiseFault c) := by
  cases h with
  | registerAfterArm hagent harmed => simp [exec, execRegister, hagent, harmed]
  | reentrant hagent hi =>
    simp only [List.mem_cons, List.not_mem_nil, or_false] at hi
    rcases hi with rfl | rfl | rfl
    · simp [exec, execRegister, hagent]
    · simp [exec, execArm, hagent]
    · simp [exec, execScantick, hagent]
  | scanFromForeground hagent => simp [exec, execScantick, hagent]
  | spuriousCbdone hagent => simp [exec, execCbdone, hagent]

theorem Breach.raises {i : Instr} {c : FaultCause} (h : Breach s i c) :
    ∃ t, exec i s = .next t ∧ FaultRaised s t c.code :=
  ⟨_, h.exec_eq, raiseFault_raised s c⟩

theorem exec_register (hagent : s.port.agent = .host) (harmed : s.armed = false) :
    exec .register s = .next s.register := by
  simp [exec, execRegister, hagent, harmed]

theorem exec_arm (hagent : s.port.agent = .host) : exec .arm s = .next { s with armed := true, response := none } := by
  simp [exec, execArm, hagent]

theorem exec_scantick (hagent : s.port.agent = .tick) (hen : s.tickEnabled = true) :
    exec .scantick s = .next s.startScan := by
  simp [exec, execScantick, hagent, hen]

/-! ### REGISTER and ARM (R182, R183, R187, R192) -/

theorem exec_register_of_full (hagent : s.port.agent = .host) (harmed : s.armed = false)
    (hfull : s.count = s.params.cap) : exec .register s = .next { s with response := some 0xFF#8 } := by
  rcases register_cases s with ⟨-, h⟩ | ⟨hne, -⟩
  · rw [exec_register hagent harmed, h]
  · exact absurd hfull hne

theorem register_of_room (hroom : s.count.toNat < s.params.cap.toNat) : s.register = { s with
    keys := Registry.write s.keys s.count.toNat (.record s.newRecord), count := s.count + 1#8,
    response := some s.count } := by
  rcases register_cases s with ⟨hfull, -⟩ | ⟨-, h⟩
  · simp [hfull] at hroom
  · exact h

end

/-- Settles O6: two breaches, a full registry, and a registry with room, whose COUNT does not wrap. -/
theorem registerFollowsItsPseudocode : Obligations.RegisterFollowsItsPseudocode := by
  refine fun s => ⟨fun hagent => (Breach.reentrant hagent (by simp)).raises,
    fun hagent harmed => (Breach.registerAfterArm hagent harmed).raises,
    fun hagent harmed hfull => ⟨_, exec_register_of_full hagent harmed hfull, rfl⟩,
    fun hagent harmed hroom => ⟨_, exec_register hagent harmed, ?_⟩⟩
  have hne : s.count ≠ s.params.cap := BitVec.toNat_ne.mpr hroom.ne
  rw [register_of_room hroom]
  exact ⟨⟨slot_writeSlot_self s s.count s.newRecord, fun j hj => Registry.find_write_ne _ _ _ _ hj⟩,
    count_succ_toNat hroom.le hne, rfl, rfl⟩

/-- Settles O14: the answer changes neither COUNT nor CAP, so the registry is still full. -/
theorem fullRegistryAnswersTheSentinel : Obligations.FullRegistryAnswersTheSentinel := by
  intro s hagent harmed hfull
  exact ⟨_, exec_register_of_full hagent harmed hfull, rfl,
    exec_register_of_full (s := { s with response := some 0xFF#8 }) hagent harmed hfull⟩

/-- Settles O9: HOST's ARM is its one effect, and CB's a breach. -/
theorem armSetsArmed : Obligations.ArmSetsArmed := fun _ =>
  ⟨fun hagent => ⟨_, exec_arm hagent, rfl⟩, fun hagent => (Breach.reentrant hagent (by simp)).raises⟩

/-! ### ISPRESSED in a callback (R191, R162) -/

/-- In a callback wait key CURSOR's flag is the new value (R162). -/
theorem State.Inv.waiting_flag {s : State} (h : s.Inv) {e : Event} {r : KeyRecord} (he : s.pendingEvt = some e)
    (hr : s.slot s.cursor = some r) : r.isPressed = decide (e.kind = .press) := by
  obtain ⟨-, ⟨hkind, -, hflag, -⟩ | ⟨hkind, -, hflag, -⟩⟩ := h.waitsRightly e r he hr <;> rw [hkind, hflag] <;> rfl

/-- Settles O8: key CURSOR is live in a scan, and its flag is the new one. -/
theorem callbackReadsItsNewFlag : Obligations.CallbackReadsItsNewFlag := by
  intro s e hinv hwait he hagent
  have hlive := hinv.cursor_live (by simp [hwait])
  obtain ⟨r, hr⟩ := hinv.exists_record hlive
  rw [exec_ispressed (by simp [hagent]), query_of_record hlive hr, hinv.waiting_flag he hr]
  simp [flagByte, State.respond]

/-! ### SCANTICK and CBDONE (R193, R194, R198, R199, R237) -/

theorem startScan_of_pos {s : State} (hpos : 0 < s.count.toNat) :
    s.startScan = { s with cursor := 0#8, phase := .run, response := none } := by
  rcases startScan_cases s with ⟨hzero, -⟩ | ⟨-, h⟩
  · simp [hzero] at hpos
  · exact h

/-- Settles O10: TICK's SCANTICK by whether COUNT is 0, and two breaches. -/
theorem scantickStartsAScan : Obligations.ScantickStartsAScan := by
  refine fun s => ⟨fun hagent harmed hidle hfaulted => ?_, fun hagent => (Breach.scanFromForeground hagent).raises,
    fun hagent => (Breach.reentrant hagent (by simp)).raises⟩
  have hexec := exec_scantick hagent ((tickEnabled_iff s).mpr ⟨harmed, hidle, hfaulted⟩)
  exact ⟨fun hpos => ⟨_, hexec, startScan_of_pos hpos⟩, fun hzero => ⟨_, hexec, if_pos (BitVec.eq_of_toNat_eq hzero)⟩⟩

/-- Settles O11: in a callback wait CBDONE is the return from the callback, and HOST's CBDONE is a breach. -/
theorem cbdoneCommitsAndAdvances : Obligations.CbdoneCommitsAndAdvances := by
  refine fun s => ⟨fun r hagent hwait hfaulted hr => ?_, fun hagent => (Breach.spuriousCbdone hagent).raises⟩
  have hwritten : KeyWritten s s.returnFromCallback s.cursor { r with state := s.pendingNext } := by
    rw [returnFromCallback_of_slot s r hr]
    exact commit_keyWritten { s with pendingEvt := none, response := none } r s.pendingNext
  exact ⟨_, exec_cbdone hagent ((cbEnabled_iff s).mpr ⟨hwait, hfaulted⟩), hwritten, advance_pendingEvt _,
    advance_response _, advance_advanced s _ rfl rfl, returnFromCallback_frame s⟩

theorem withState_of_slot_none {s : State} {i : Byte} (h : s.slot i = none) (st : KeyState) :
    Slot.withState (Registry.find s.keys i.toNat) st = .stateOnly st := by
  cases hfind : Registry.find s.keys i.toNat with
  | none => rfl
  | some v =>
    cases v with
    | record r => simp [State.slot, Registry.read, hfind] at h
    | stateOnly st' => rfl

/-- Settles O47: the return from a callback reads no field of the record, and writes STATE of slot CURSOR alone. -/
theorem cbdoneOnASlotWithoutARecord : Obligations.CbdoneOnASlotWithoutARecord := by
  intro s hagent hwait hfaulted hnone
  refine ⟨_, exec_cbdone hagent ((cbEnabled_iff s).mpr ⟨hwait, hfaulted⟩), ?_, fun j hj => ?_,
    advance_advanced s _ rfl rfl, returnFromCallback_frame s⟩
  · rw [returnFromCallback_find, if_pos rfl, withState_of_slot_none hnone]
  · rw [returnFromCallback_find, if_neg hj]

/-- Settles O13: both commands are breaches for HOST. -/
theorem foregroundMisuseFaults : Obligations.ForegroundMisuseFaults := by
  intro s i code hmem hagent
  simp only [List.mem_cons, Prod.mk.injEq, List.not_mem_nil, or_false] at hmem
  rcases hmem with ⟨rfl, rfl⟩ | ⟨rfl, rfl⟩
  · exact (Breach.scanFromForeground hagent).raises
  · exact (Breach.spuriousCbdone hagent).raises

/-! ### Agents that are not enabled (R203, R205, R246, R247) -/

section
variable {s : State}

theorem hostEnabled_eq_false (h : s.faulted = true ∨ (s.phase ≠ .idle ∧ s.params.hostDuringScan = .stalled)) :
    s.hostEnabled = false := by
  rw [← Bool.not_eq_true, hostEnabled_iff]
  rcases h with h | ⟨hbusy, hstalled⟩
  · simp [h]
  · simp [hbusy, hstalled]

theorem tickEnabled_eq_false (h : s.armed = false ∨ s.phase ≠ .idle ∨ s.faulted = true) : s.tickEnabled = false := by
  rw [← Bool.not_eq_true, tickEnabled_iff]
  rcases h with h | h | h <;> simp [h]

theorem engineEnabled_eq_false (h : s.phase ≠ .run ∨ s.faulted = true) : s.engineEnabled = false := by
  rw [← Bool.not_eq_true, engineEnabled_iff]
  rcases h with h | h <;> simp [h]

theorem cbEnabled_eq_false (h : s.phase ≠ .waitCb ∨ s.faulted = true) : s.cbEnabled = false := by
  rw [← Bool.not_eq_true, cbEnabled_iff]
  rcases h with h | h <;> simp [h]

theorem step_of_turn {turn : Turn} (hturn : s.env.turnAt 0 = turn) : step s = runTurn turn s.takeTurn := by
  rw [step, hturn]

/-- CB's turn passes outside a callback wait (log 2). -/
theorem step_cb_disabled (hturn : s.env.turnAt 0 = .cb) (h : s.phase ≠ .waitCb ∨ s.faulted = true) :
    step s = .next s.takeTurn := by
  simp [step_of_turn hturn, runTurn, cbTurn, cbEnabled_eq_false h]

end

/-- Settles O15: TICK issues no other command, and the three guarded instructions refuse a disabled agent. -/
theorem forbiddenIssuesStopByName : Obligations.ForbiddenIssuesStopByName := by
  refine fun s => ⟨fun idx hagent i hi => ?_, fun hagent hdisabled => ?_, fun hagent hdisabled => ?_,
    fun hdisabled a => ?_⟩
  · simp only [List.mem_cons, List.not_mem_nil, or_false] at hi
    rcases hi with rfl | rfl | rfl | rfl
    · simp [exec, execRegister, hagent]
    · simp [exec, execIspressed, hagent]
    · simp [exec, execArm, hagent]
    · simp [exec, execCbdone, hagent]
  · simp [exec, execScantick, hagent, tickEnabled_eq_false hdisabled]
  · simp [exec, execCbdone, hagent, cbEnabled_eq_false hdisabled]
  · simp [exec_decodeEntry, evalEntry, engineEnabled_eq_false hdisabled]

/-- Settles O24: each turn asks its agent's enabling condition first, which the turn taken does not change. -/
theorem disabledAgentHasNoStep : Obligations.DisabledAgentHasNoStep := by
  refine fun s => ⟨fun hturn hdisabled => ?_, fun hturn hdisabled => ?_, fun hturn hdisabled => ?_, step_cb_disabled⟩
  · simp [step_of_turn hturn, runTurn, hostTurn, hostEnabled_eq_false hdisabled]
  · simp [step_of_turn hturn, runTurn, tickTurn, tickEnabled_eq_false hdisabled]
  · simp [step_of_turn hturn, runTurn, engineTurn, engineEnabled_eq_false hdisabled]

/-! ### Agents that are enabled (R181, R240) -/

theorem issue_legal {c : Command} {i : Instr} (hdec : decode (.cmd c.word) = .legal i) (a : Issuer) (s : State) :
    issue a c s = exec i (s.withPort a c) := by
  simp [issue, hdec]

section
variable {s : State}

theorem step_host {c : Command} {rest : List Command} (hturn : s.env.turnAt 0 = .host) (hen : s.hostEnabled = true)
    (hprog : s.env.hostProg = c :: rest) : step s = issue .host c s.takeTurn.takeHostWord := by
  simp [step_of_turn hturn, runTurn, hostTurn, hen, hprog]

theorem step_cb {w : CmdWord} {rest : List CmdWord} (hturn : s.env.turnAt 0 = .cb) (hen : s.cbEnabled = true)
    (hprog : s.env.cbProg = w :: rest) : step s = issue .cb (bareWord w) s.takeTurn.takeCbWord := by
  simp [step_of_turn hturn, runTurn, cbTurn, hen, hprog]

theorem decode_scantick : decode (.cmd (bareWord 0x2000#16).word) = .legal .scantick := by decide

theorem decode_cbdone : decode (.cmd (bareWord 0x5000#16).word) = .legal .cbdone := by decide

theorem step_tick (hturn : s.env.turnAt 0 = .tick) (hen : s.tickEnabled = true) :
    step s = exec .scantick (s.takeTurn.withPort .tick (bareWord 0x2000#16)) := by
  simp [step_of_turn hturn, runTurn, tickTurn, hen, issue_legal decode_scantick]

end

/-- Settles O22: each turn issues the word of its agent, and `issue` runs what the word decodes to. -/
theorem stepRunsTheDecodedInstruction : Obligations.StepRunsTheDecodedInstruction := by
  refine fun s i => ⟨fun c rest hturn hen hprog hdec => ?_, fun w rest hturn hen hprog hdec => ?_, step_tick,
    fun r hturn hen hr hdec => ?_⟩
  · rw [step_host hturn hen hprog, issue_legal hdec]
  · exact (step_cb hturn hen hprog).trans (issue_legal (c := bareWord w) hdec .cb _)
  · cases hdec
    rw [step_engine_of_record hturn hen hr]
    exact (exec_row_of_record (s := s.takeTurn.takeDraw r.pin) hen hr _).symm

/-! ### Every step completes -/

/-- HOST, and CB in a callback wait, get an answer to every command of the opcode map. -/
theorem OpcodeMap.completes {s : State} {i : Instr} {op : BitVec 4} {idx : Byte} (h : OpcodeMap i op idx)
    (hissuer : s.port.agent = .host ∨ (s.port.agent = .cb ∧ s.cbEnabled = true)) : ∃ t, exec i s = .next t := by
  have hagent : s.port.agent ≠ .tick := by rcases hissuer with h | ⟨h, -⟩ <;> simp [h]
  rcases hissuer with hhost | ⟨hcb, hen⟩
  · cases h with
    | register =>
      cases harmed : s.armed with
      | false => exact ⟨_, exec_register hhost harmed⟩
      | true => exact ⟨_, (Breach.registerAfterArm hhost harmed).exec_eq⟩
    | scantick => exact ⟨_, (Breach.scanFromForeground hhost).exec_eq⟩
    | ispressed => exact ⟨_, exec_ispressed hagent idx⟩
    | arm => exact ⟨_, exec_arm hhost⟩
    | cbdone => exact ⟨_, (Breach.spuriousCbdone hhost).exec_eq⟩
  · cases h with
    | register | arm | scantick => exact ⟨_, (Breach.reentrant hcb (by simp)).exec_eq⟩
    | ispressed => exact ⟨_, exec_ispressed hagent idx⟩
    | cbdone => exact ⟨_, exec_cbdone hcb hen⟩

theorem issue_completes {a : Issuer} {c : Command} {s : State} (hissuer : a = .host ∨ (a = .cb ∧ s.cbEnabled = true)) :
    ∃ t, issue a c s = .next t := by
  rcases issue_cases a c s with ⟨i, hdec, hi⟩ | ⟨why, -, hi⟩ <;> rw [hi]
  · exact (decodeCmd_eq_legal.mp hdec).2.completes hissuer
  · exact ⟨_, rfl⟩

theorem hostTurn_completes (s : State) : ∃ t, hostTurn s = .next t := by
  unfold hostTurn
  split
  · split
    · exact issue_completes (.inl rfl)
    · exact ⟨_, rfl⟩
  · exact ⟨_, rfl⟩

theorem tickTurn_completes (s : State) : ∃ t, tickTurn s = .next t := by
  unfold tickTurn
  split
  · exact ⟨_, (issue_legal decode_scantick .tick s).trans (exec_scantick rfl ‹_›)⟩
  · exact ⟨_, rfl⟩

theorem engineTurn_completes (s : State) : ∃ t, engineTurn s = .next t := by
  unfold engineTurn evalKey
  split
  · split
    · exact ⟨_, exec_row_of_record (s := s.takeDraw _) ‹_› ‹_› _⟩
    · exact ⟨_, rfl⟩
  · exact ⟨_, rfl⟩

theorem cbTurn_completes (s : State) : ∃ t, cbTurn s = .next t := by
  unfold cbTurn
  split
  · split
    · exact issue_completes (.inr ⟨rfl, ‹_›⟩)
    · exact ⟨_, rfl⟩
  · exact ⟨_, rfl⟩

/-- Settles O30: an enabled agent's word gets an answer, ENGINE's row is enabled with it, and other turns pass. -/
theorem everyStepCompletes : Obligations.EveryStepCompletes := by
  intro s
  unfold step
  cases s.env.turnAt 0 with
  | host => exact hostTurn_completes _
  | tick => exact tickTurn_completes _
  | engine => exact engineTurn_completes _
  | cb => exact cbTurn_completes _
  | reset => exact ⟨_, rfl⟩

/-! ### The agents' words (R205, R247) -/

theorem register_env (s : State) : s.register.env = s.env := by
  rcases register_cases s with ⟨-, h⟩ | ⟨-, h⟩ <;> rw [h]

theorem query_env (s : State) (idx : Byte) : (s.query idx).env = s.env := by
  rcases query_cases s idx with ⟨r, -, -, h⟩ | ⟨-, -, h⟩ | ⟨-, h⟩ <;> simp [h]

theorem startScan_env (s : State) : s.startScan.env = s.env := by
  rcases startScan_cases s with ⟨-, h⟩ | ⟨-, h⟩ <;> rw [h]

/-- No instruction changes the world at the ports. -/
theorem Effect.env_eq {s t : State} {i : Instr} (h : Effect s i t) : t.env = s.env := by
  cases h with
  | registers => exact register_env s
  | answers idx => exact query_env s idx
  | arms => rfl
  | startsScan => exact startScan_env s
  | returns => exact returnFromCallback_env s
  | evaluates a _ heval =>
    obtain ⟨-, ⟨r, -, rfl⟩ | ⟨-, rfl⟩⟩ := (evalEntry_next _ _ _ _).mp heval
    · exact applyEntry_env ..
    · exact readNoValue_env s
  | faults c => exact raiseFault_env s c

theorem issue_env {a : Issuer} {c : Command} {s t : State} (h : issue a c s = .next t) : t.env = s.env := by
  rcases issue_cases a c s with ⟨i, -, hi⟩ | ⟨why, -, hi⟩ <;> rw [hi] at h
  · exact (exec_next h).env_eq
  · cases h
    exact raiseFault_env _ _

/-- A step leaves each agent the words it had, or all of them but the first. -/
theorem step_words {s t : State} (hstep : step s = .next t) :
    t.env.hostProg <:+ s.env.hostProg ∧ t.env.cbProg <:+ s.env.cbProg := by
  rcases step_next_cases s t hstep with rfl | ⟨-, rfl⟩ | ⟨c, rest, -, -, -, h⟩ | ⟨-, -, h⟩ | ⟨w, rest, -, -, -, h⟩ |
    ⟨r, -, -, -, h⟩ | ⟨-, -, -, rfl⟩
  · exact ⟨List.suffix_rfl, List.suffix_rfl⟩
  · exact ⟨List.suffix_rfl, List.suffix_rfl⟩
  · rw [issue_env h]
    exact ⟨List.tail_suffix _, List.suffix_rfl⟩
  · rw [(exec_next h).env_eq]
    exact ⟨List.suffix_rfl, List.suffix_rfl⟩
  · rw [issue_env h]
    exact ⟨List.suffix_rfl, List.tail_suffix _⟩
  · rw [(exec_next h).env_eq]
    exact ⟨List.suffix_rfl, List.suffix_rfl⟩
  · rw [readNoValue_env]
    exact ⟨List.suffix_rfl, List.suffix_rfl⟩

/-- Settles O45: the words left are among those there were, and none of them is a cause of a fault. -/
theorem afterTheHostNothingFaults : Obligations.AfterTheHostNothingFaults := by
  intro s t hinv hhost hbehave hfaulted hstep
  obtain ⟨hhostWords, hcbWords⟩ := step_words hstep
  refine ⟨List.suffix_nil.mp (hhost ▸ hhostWords), fun w hw => hbehave w (hcbWords.subset hw), ?_⟩
  by_contra hfault
  rcases faultsAreRecordedForTheirCausesOnly s t hinv hstep hfaulted (Bool.eq_true_of_not_eq_false hfault) with
    ⟨c, rest, -, -, hprog, -⟩ | ⟨w, rest, -, -, hprog, hcause⟩
  · simp [hhost] at hprog
  · have hw : decodeCmd w = .legal .cbdone ∨ ∃ idx, decodeCmd w = .legal (.ispressed idx) :=
      hbehave w (by simp [hprog])
    rcases hw with hw | ⟨idx, hw⟩ <;> simp [hw] at hcause

/-! ### Runs -/

theorem run_add_of_next {M : Host.Core} {m : Nat} {s t : M.State} (h : M.run m s = .next t) (n : Nat) :
    M.run (m + n) s = M.run n t := by
  induction m generalizing s with
  | zero =>
    cases h
    rw [Nat.zero_add]
  | succ m ih =>
    rw [Nat.add_right_comm]
    simp only [Host.Core.run] at h ⊢
    split at h
    · exact ih h
    · cases h
    · cases h

theorem run_one {s t : State} (h : step s = .next t) : Host.Core.run Sys2Proof.core 1 s = .next t := by
  simp only [Host.Core.run, core, h]

theorem State.Inv.run {n : Nat} {s t : State} (h : s.Inv) (hrun : Host.Core.run Sys2Proof.core n s = .next t) :
    t.Inv := by
  induction n generalizing s with
  | zero =>
    cases hrun
    exact h
  | succ n ih =>
    obtain ⟨u, hu⟩ := everyStepCompletes s
    rw [Nat.add_comm, run_add_of_next (run_one hu)] at hrun
    exact ih (everyStepKeepsTheInvariant s u h hu) hrun

/-! ### One key of a scan: ENGINE's step, and CB's turn after it (R159, R198) -/

theorem KeyWritten.read {s t : State} {i : Byte} {r : KeyRecord} (h : KeyWritten s t i r) (j : Nat) :
    Registry.read t.keys j = if j = i.toNat then some r else Registry.read s.keys j := by
  split
  · rename_i hj
    rw [hj]
    exact h.1
  · exact Registry.read_congr _ _ _ (h.2 j ‹_›)

/-- ENGINE's evaluation is complete, or waits for the callback that lets it complete (R157, R158, R159). -/
theorem evalKeyAsWritten_cases (s : State) (lv : Level) (r : KeyRecord) :
    s.evalKeyAsWritten lv r = (s.writeSlot s.cursor (r.evaluated lv)).advance ∨
    ∃ kind hd r' nxt, { r' with state := nxt } = r.evaluated lv ∧
      s.evalKeyAsWritten lv r = s.notify kind (some hd) r' nxt := by
  unfold State.evalKeyAsWritten KeyRecord.evaluated
  rcases lookup r.state lv with - | ⟨nxt, action⟩
  · exact .inl rfl
  · cases action with
    | none => exact .inl rfl
    | markPressed =>
      cases hd : r.onPress with
      | none => exact .inl rfl
      | some h => exact .inr ⟨_, h, _, nxt, rfl, rfl⟩
    | clearPressed =>
      cases hd : r.onRelease with
      | none => exact .inl rfl
      | some h => exact .inr ⟨_, h, _, nxt, rfl, rfl⟩

theorem advance_phase_ne_waitCb (s : State) : s.advance.phase ≠ .waitCb := by
  rcases advance_cases s with ⟨-, h⟩ | ⟨-, h⟩ <;> simp [h]

/-- From `s` to `t`, key CURSOR's record became `r` and the sequencer went on; the other registers are the same, and of
the world CB's turn was taken, with its word or without it. -/
structure KeyDone (s t : State) (r : KeyRecord) : Prop where
  written  : KeyWritten s t s.cursor r
  advanced : Advanced s t
  sticky   : SameSticky s t
  world    : t.env = s.takeTurn.env ∨ t.env = s.takeTurn.takeCbWord.env

/-- CB's turn after an evaluation: it passes where no callback is called, and else its CBDONE returns from it. -/
theorem step_cb_after_evalKey {s : State} {rest : List CmdWord} (hfaulted : s.faulted = false)
    (hturn : s.env.turnAt 0 = .cb) (hprog : s.env.cbProg = 0x5000#16 :: rest) (lv : Level) (r : KeyRecord) :
    ∃ t, step (s.evalKeyAsWritten lv r) = .next t ∧ KeyDone s t (r.evaluated lv) := by
  rcases evalKeyAsWritten_cases s lv r with heq | ⟨kind, hd, r', nxt, hr', heq⟩ <;> rw [heq]
  · have hturn' : (s.writeSlot s.cursor (r.evaluated lv)).advance.env.turnAt 0 = .cb := by simpa using hturn
    exact ⟨_, step_cb_disabled hturn' (.inl (advance_phase_ne_waitCb _)),
      { written := commit_keyWritten s (r.evaluated lv) _
        advanced := advance_advanced s _ rfl rfl
        sticky := by constructor <;> simp
        world := .inl (by simp) }⟩
  · obtain ⟨u, hu, hwritten, -, hadvanced⟩ :=
      cbdone_of_notify (s := s.takeTurn.takeCbWord) hfaulted kind hd r' nxt (bareWord 0x5000#16)
    have hen : (s.notify kind (some hd) r' nxt).cbEnabled = true := (cbEnabled_iff _).mpr ⟨rfl, hfaulted⟩
    have hstep := step_cb (s := s.notify kind (some hd) r' nxt) hturn hen hprog
    rw [issue_legal decode_cbdone] at hstep
    have hreturn := Host.Outcome.next.inj (hu.symm.trans (exec_cbdone rfl hen))
    refine ⟨u, hstep.trans hu, hr' ▸ hwritten, hadvanced, ?_, .inr ?_⟩
    · have hsame := hreturn ▸ returnFromCallback_sameSticky _
      exact ⟨hsame.params, hsame.armed, hsame.count, hsame.faulted, hsame.faultCode⟩
    · rw [hreturn, returnFromCallback_env]
      rfl

/-! ### A whole scan (R193, R196, R206) -/

/-- The record of slot `i` after the `n` keys from `c` on were each evaluated once, in index order, at the next answers
of the pin oracle. -/
def KeyRecord.scanned (r : KeyRecord) (e : Env) (c n i : Nat) : KeyRecord :=
  if c ≤ i ∧ i < c + n then r.evaluated (e.levelAt r.pin (i - c)) else r

theorem scanned_of_mem {c n i : Nat} (h : c ≤ i ∧ i < c + n) (r : KeyRecord) (e : Env) :
    r.scanned e c n i = r.evaluated (e.levelAt r.pin (i - c)) :=
  if_pos h

theorem scanned_of_not_mem {c n i : Nat} (h : ¬ (c ≤ i ∧ i < c + n)) (r : KeyRecord) (e : Env) :
    r.scanned e c n i = r :=
  if_neg h

/-- From `s` to `t`, the `n` keys from CURSOR on were scanned: by turns of ENGINE and CB, a level drawn for each key,
and a word of CB used for each at most. -/
structure Scanned (s t : State) (n : Nat) : Prop where
  keys      : ∀ i, Registry.read t.keys i =
    (Registry.read s.keys i).map fun r => r.scanned s.env s.cursor.toNat n i
  sticky    : SameSticky s t
  sched     : t.env.sched = s.env.sched.drop (2 * n)
  draws     : t.env.draws = s.env.draws.drop n
  drawCount : t.env.drawCount = s.env.drawCount + n
  cbProg    : ∃ k ≤ n, t.env.cbProg = s.env.cbProg.drop k

theorem Scanned.levelAt {s t : State} {n : Nat} (h : Scanned s t n) (p : PinRef) (k : Nat) :
    t.env.levelAt p k = s.env.levelAt p (n + k) := by
  simp [Env.levelAt, h.draws, h.drawCount, Nat.add_assoc]

theorem SameSticky.trans {s t u : State} (hst : SameSticky s t) (htu : SameSticky t u) : SameSticky s u :=
  ⟨htu.params.trans hst.params, htu.armed.trans hst.armed, htu.count.trans hst.count, htu.faulted.trans hst.faulted,
    htu.faultCode.trans hst.faultCode⟩

/-- Two ranges of keys, one after the other. -/
theorem Scanned.trans {s t u : State} {m n : Nat} (hst : Scanned s t m) (htu : Scanned t u n)
    (hcursor : t.cursor.toNat = s.cursor.toNat + m) : Scanned s u (m + n) where
  keys i := by
    rw [htu.keys, hst.keys, Option.map_map, hcursor]
    congr 1
    funext r
    by_cases hlow : s.cursor.toNat ≤ i ∧ i < s.cursor.toNat + m
    · simp only [Function.comp, scanned_of_mem hlow]
      rw [scanned_of_not_mem (by omega), scanned_of_mem (by omega)]
    · simp only [Function.comp, scanned_of_not_mem hlow]
      by_cases hhigh : s.cursor.toNat + m ≤ i ∧ i < s.cursor.toNat + m + n
      · rw [scanned_of_mem hhigh, scanned_of_mem (by omega), hst.levelAt]
        congr 2
        omega
      · rw [scanned_of_not_mem hhigh, scanned_of_not_mem (by omega)]
  sticky := hst.sticky.trans htu.sticky
  sched := by rw [htu.sched, hst.sched, List.drop_drop, Nat.mul_add]
  draws := by rw [htu.draws, hst.draws, List.drop_drop]
  drawCount := by rw [htu.drawCount, hst.drawCount, Nat.add_assoc]
  cbProg := by
    obtain ⟨k, hk, hkWords⟩ := hst.cbProg
    obtain ⟨l, hl, hlWords⟩ := htu.cbProg
    exact ⟨k + l, Nat.add_le_add hk hl, by rw [hlWords, hkWords, List.drop_drop]⟩

/-- The two turns of one key, seen from before ENGINE's turn. -/
theorem KeyDone.scanned {s t : State} {r : KeyRecord} (hr : s.slot s.cursor = some r)
    (h : KeyDone (s.takeTurn.takeDraw r.pin) t (r.evaluated (s.env.levelAt r.pin 0))) : Scanned s t 1 where
  keys i := by
    rw [h.written.read, takeDraw_cursor, takeTurn_cursor]
    by_cases hi : i = s.cursor.toNat
    · subst hi
      have hread : Registry.read s.keys s.cursor.toNat = some r := hr
      simp [hread, scanned_of_mem]
    · have hout : ¬ (s.cursor.toNat ≤ i ∧ i < s.cursor.toNat + 1) := by omega
      simp only [if_neg hi, scanned_of_not_mem hout, takeDraw_keys, takeTurn_keys, Option.map_id']
  sticky := ⟨h.sticky.params, h.sticky.armed, h.sticky.count, h.sticky.faulted, h.sticky.faultCode⟩
  sched := by rcases h.world with h | h <;> simp [h, ← List.drop_one]
  draws := by rcases h.world with h | h <;> simp [h]
  drawCount := by rcases h.world with h | h <;> simp [h]
  cbProg := by
    rcases h.world with h | h
    · exact ⟨0, by simp, by simp [h]⟩
    · exact ⟨1, le_rfl, by simp [h]⟩

theorem Advanced.of_lt {s t : State} (h : Advanced s t) (hlt : s.cursor.toNat + 1 < s.count.toNat) :
    t.phase = .run ∧ t.cursor.toNat = s.cursor.toNat + 1 := by
  unfold Advanced at h
  rwa [if_pos hlt] at h

theorem Advanced.of_last {s t : State} (h : Advanced s t) (hlast : s.cursor.toNat + 1 = s.count.toNat) :
    t.phase = .idle ∧ t.cursor = s.cursor := by
  unfold Advanced at h
  rwa [if_neg (by omega)] at h

/-- CB's words of which the first `n + 1` are CBDONE, once at most one of them is used. -/
theorem replicate_prefix_drop {ws : List CmdWord} {n k : Nat} (h : List.replicate (n + 1) 0x5000#16 <+: ws)
    (hk : k ≤ 1) : List.replicate n 0x5000#16 <+: ws.drop k := by
  refine .trans ?_ (h.drop k)
  rw [List.drop_replicate, show n + 1 - k = n + (1 - k) by omega, List.replicate_add]
  exact List.prefix_append _ _

/-- ENGINE's turn and CB's scan key CURSOR, and the sequencer goes on. -/
theorem run_scans_key {n : Nat} {s : State} {turns : List Turn} (hinv : s.Inv) (hen : s.engineEnabled = true)
    (hsched : s.env.sched = scanTurns (n + 1) ++ turns) (hprog : List.replicate (n + 1) 0x5000#16 <+: s.env.cbProg) :
    ∃ t, Host.Core.run Sys2Proof.core 2 s = .next t ∧ Scanned s t 1 ∧ Advanced s t := by
  obtain ⟨hrun, hfaulted⟩ := (engineEnabled_iff s).mp hen
  obtain ⟨r, hr⟩ := hinv.exists_cursor_record hen
  obtain ⟨words, hwords⟩ := hprog
  have heval := engineStepIsEvalKey s r (by simp [Env.turnAt, hsched, scanTurns]) hrun hfaulted hr
  obtain ⟨t, hreturn, hdone⟩ := step_cb_after_evalKey (s := s.takeTurn.takeDraw r.pin) hfaulted
    (by simp [Env.turnAt, hsched, scanTurns]) hwords.symm (s.env.levelAt r.pin 0) r
  exact ⟨t, (run_add_of_next (run_one heval) 1).trans (run_one hreturn), hdone.scanned hr, hdone.advanced⟩

/-- From key CURSOR on, the scan evaluates each key left and ends. -/
theorem run_scans_remaining_keys {n : Nat} {s : State} {turns : List Turn} (hinv : s.Inv) (hen : s.engineEnabled = true)
    (hleft : s.cursor.toNat + (n + 1) = s.count.toNat) (hsched : s.env.sched = scanTurns (n + 1) ++ turns)
    (hprog : List.replicate (n + 1) 0x5000#16 <+: s.env.cbProg) :
    ∃ t, Host.Core.run Sys2Proof.core (2 * (n + 1)) s = .next t ∧ Scanned s t (n + 1) ∧ t.phase = .idle ∧
      t.cursor.toNat + 1 = s.count.toNat := by
  induction n generalizing s with
  | zero =>
    obtain ⟨t, hrun, hscanned, hadvanced⟩ := run_scans_key hinv hen hsched hprog
    obtain ⟨hidle, hcursor⟩ := hadvanced.of_last hleft
    exact ⟨t, hrun, hscanned, hidle, hcursor ▸ hleft⟩
  | succ n ih =>
    obtain ⟨t, hrun, hscanned, hadvanced⟩ := run_scans_key hinv hen hsched hprog
    obtain ⟨hphase, hcursor⟩ := hadvanced.of_lt (by omega)
    have hcount := congrArg BitVec.toNat hscanned.sticky.count
    obtain ⟨k, hk, hcb⟩ := hscanned.cbProg
    obtain ⟨u, hrest, hscanned', hidle, hlast⟩ := ih (hinv.run hrun)
      ((engineEnabled_iff t).mpr ⟨hphase, hscanned.sticky.faulted.trans ((engineEnabled_iff s).mp hen).2⟩)
      (by omega) (by rw [hscanned.sched, hsched]; rfl) (hcb ▸ replicate_prefix_drop hprog hk)
    refine ⟨u, ?_, Nat.add_comm 1 (n + 1) ▸ hscanned.trans hscanned' hcursor, hidle, hlast.trans hcount⟩
    rw [Nat.mul_succ, Nat.add_comm]
    exact (run_add_of_next hrun _).trans hrest

theorem length_scanTurns (n : Nat) : (scanTurns n).length = 2 * n := by
  induction n with
  | zero => rfl
  | succ n ih => simp [scanTurns, ih, Nat.mul_succ]

/-- TICK's step of a registry with keys starts a scan at key 0 (R193). -/
theorem step_tick_starts {s : State} (hturn : s.env.turnAt 0 = .tick) (hen : s.tickEnabled = true)
    (hpos : 0 < s.count.toNat) : step s = .next { s.takeTurn.withPort .tick (bareWord 0x2000#16) with
      cursor := 0#8, phase := .run, response := none } := by
  rw [step_tick hturn hen, exec_scantick (s := s.takeTurn.withPort _ _) rfl hen]
  exact congrArg _ (startScan_of_pos hpos)

theorem State.Inv.lt_count_of_read {s : State} (h : s.Inv) {i : Nat} {r : KeyRecord}
    (hr : Registry.read s.keys i = some r) : i < s.count.toNat := by
  simpa [hr] using h.liveWritten i

/-- Settles O38: TICK's step starts the scan at key 0, and the scan evaluates the COUNT keys from there on. -/
theorem scanEvaluatesEachKeyOnceInOrder : Obligations.ScanEvaluatesEachKeyOnceInOrder := by
  intro s turns words hinv hfaulted harmed hidle hpos hsched hprog
  have hstep := step_tick_starts (by simp [Env.turnAt, hsched])
    ((tickEnabled_iff s).mpr ⟨harmed, hidle, hfaulted⟩) hpos
  obtain ⟨n, hn⟩ := Nat.exists_eq_add_one.mpr hpos
  rw [hn] at hsched hprog ⊢
  have hsched' : s.env.sched.tail = scanTurns (n + 1) ++ turns := congrArg List.tail hsched
  obtain ⟨t, hrun, hscanned, hidle', hcursor⟩ := run_scans_remaining_keys (everyStepKeepsTheInvariant s _ hinv hstep)
    ((engineEnabled_iff _).mpr ⟨rfl, hfaulted⟩) ((Nat.zero_add _).trans hn.symm) hsched'
    ⟨words, hprog.symm⟩
  have hrun' : Host.Core.run Sys2Proof.core (2 * (n + 1) + 1) s = .next t := by
    rw [Nat.add_comm]
    exact (run_add_of_next (run_one hstep) _).trans hrun
  refine ⟨t, hrun', hidle', hscanned.sticky.faulted.trans hfaulted, hscanned.sticky.count, hcursor.trans hn,
    (hinv.run hrun').no_event (by simp [hidle']), ?_, hscanned.drawCount, fun i => ?_⟩
  · exact hscanned.sched.trans ((congrArg _ hsched').trans (List.drop_left' (length_scanTurns _)))
  · rw [hscanned.keys]
    refine Option.map_congr fun r hr => ?_
    have hlive := hinv.lt_count_of_read hr
    exact scanned_of_mem (c := 0) (by omega) r _

end Sys2Proof.Machine

/-! The exceptions and contexts of 60_exceptions.md: re-entry from a callback, illegal words, the context the block is
in, and the agent that a scan waits for. -/

namespace Sys2Proof.Machine

/-! ### Faults (R234, R236) -/

/-- Settles O12: each of the three commands is a breach for CB, and the breach is raised before ARMED or COUNT is read. -/
theorem callbackMustNotReenter : Obligations.CallbackMustNotReenter :=
  fun _ _ hi hagent => (Breach.reentrant hagent hi).raises

theorem issue_illegal {c : Command} {why : IllegalWord} (hdec : decode (.cmd c.word) = .illegal why) (a : Issuer)
    (s : State) : issue a c s = .next ((s.withPort a c).raiseFault .illegalCommand) := by
  simp [issue, hdec]

/-- Settles O23: the enabled agent's turn issues its word, and issuing an Illegal word only raises the fault. -/
theorem illegalWordRaisesIllegalCommand : Obligations.IllegalWordRaisesIllegalCommand := by
  refine fun s why => ⟨fun c rest hturn hen hprog hdec => ?_, fun w rest hturn hen hprog hdec => ?_⟩
  · exact ⟨_, (step_host hturn hen hprog).trans (issue_illegal hdec .host _), raiseFault_raised _ .illegalCommand⟩
  · exact ⟨_, (step_cb hturn hen hprog).trans (issue_illegal (c := bareWord w) hdec .cb _),
      raiseFault_raised _ .illegalCommand⟩

/-! ### The agent that a scan waits for (R241, R286) -/

/-- Settles O37: PHASE is RUN or WAIT_CB, and each enables one of the two agents. -/
theorem oneOfEngineAndCbInsideAScan : Obligations.OneOfEngineAndCbInsideAScan := by
  intro s hbusy hfaulted
  refine ⟨tickEnabled_eq_false (.inr (.inl hbusy)), ?_⟩
  cases hphase : s.phase with
  | idle => exact absurd hphase hbusy
  | run => exact .inl ⟨rfl, (engineEnabled_iff s).mpr ⟨hphase, hfaulted⟩, cbEnabled_eq_false (.inl (by simp [hphase]))⟩
  | waitCb =>
    exact .inr ⟨rfl, engineEnabled_eq_false (.inl (by simp [hphase])), (cbEnabled_iff s).mpr ⟨hphase, hfaulted⟩⟩

/-! ### Contexts (R248, log 19) -/

section
variable {s t : State}

theorem context_of_idle (h : s.phase = .idle) : s.context = .foreground := by simp [State.context, h]

theorem context_of_run (h : s.phase = .run) : s.context = .scan := by simp [State.context, h]

theorem context_of_waitCb (h : s.phase = .waitCb) : s.context = .callback := by simp [State.context, h]

/-- The context is named from PHASE alone. -/
theorem context_congr (h : t.phase = s.phase) : t.context = s.context := by simp [State.context, h]

theorem register_phase (s : State) : s.register.phase = s.phase := by
  rcases register_cases s with ⟨-, h⟩ | ⟨-, h⟩ <;> rw [h]

theorem query_phase (s : State) (idx : Byte) : (s.query idx).phase = s.phase := by
  rcases query_cases s idx with ⟨r, -, -, h⟩ | ⟨-, -, h⟩ | ⟨-, h⟩ <;> simp [h]

/-- Only three effects of a turn can write PHASE, each of an agent that PHASE enables (R157, R193, R198, R206). No
invariant is needed, since the fault of a read without a value keeps PHASE too. -/
theorem BlockStep.phase_cases {turn : Turn} (h : BlockStep s turn t) (hreset : turn ≠ .reset) :
    t.phase = s.phase ∨
    (turn = .tick ∧ s.tickEnabled = true ∧ t.phase = .run) ∨
    (turn = .engine ∧ s.engineEnabled = true) ∨
    (turn = .cb ∧ s.cbEnabled = true) := by
  cases h with
  | passes => exact .inl rfl
  | resets => exact absurd rfl hreset
  | registers => exact .inl (register_phase s)
  | answers _ idx => exact .inl (query_phase s idx)
  | arms => exact .inl rfl
  | startsScan hen =>
    rcases startScan_cases s with ⟨-, heq⟩ | ⟨-, heq⟩ <;> rw [heq]
    · exact .inl rfl
    · exact .inr (.inl ⟨rfl, hen, rfl⟩)
  | returns hen => exact .inr (.inr (.inr ⟨rfl, hen⟩))
  | evaluates r lv hen => exact .inr (.inr (.inl ⟨rfl, hen⟩))
  | faults _ c => exact .inl (raiseFault_phase s c)

end

/-- Settles O34: the context follows PHASE, and the agent whose effect writes PHASE is enabled in one PHASE alone. -/
theorem contextChangesOnlyByItsAgent : Obligations.ContextChangesOnlyByItsAgent := by
  intro s t hstep hreset hchanged
  obtain ⟨p, e, -, -, hblock⟩ := step_blockStep hstep
  rcases hblock.phase_cases hreset with hphase | ⟨hturn, hen, hrun⟩ | ⟨hturn, hen⟩ | ⟨hturn, hen⟩
  · exact absurd (context_congr hphase) hchanged
  · exact .inl ⟨context_of_idle ((tickEnabled_iff _).mp hen).2.1, hturn, context_of_run hrun⟩
  · exact .inr (.inl ⟨context_of_run ((engineEnabled_iff _).mp hen).1, hturn⟩)
  · exact .inr (.inr ⟨context_of_waitCb ((cbEnabled_iff _).mp hen).1, hturn⟩)

end Sys2Proof.Machine

/-! Reset and the end of a run, of 70_reset_and_hazards.md: the block just reset, and the step after a run has ended. -/

namespace Sys2Proof.Machine

/-! ### Reset (R49, R270 to R272) -/

/-- Settles O25: the turn runs the reset input, whose result is the reset state but for the parameters and the world. -/
theorem resetFromEveryState : Obligations.ResetFromEveryState := fun _ hturn =>
  ⟨_, step_of_turn hturn, rfl, Registry.find_nil, rfl, rfl, rfl, rfl, rfl, rfl, rfl, rfl⟩

/-- Settles O26: COUNT is 0, so every index is at or above it, and a CAP from 1 leaves room at slot 0. -/
theorem afterResetTheRegistryIsEmpty : Obligations.AfterResetTheRegistryIsEmpty := by
  intro s c hparams
  have hroom : 1 ≤ s.params.cap.toNat := of_decide_eq_true hparams
  refine ⟨fun idx => ?_, _, exec_register rfl rfl, ?_⟩
  · rw [exec_ispressed (by simp), query_of_count_le (Nat.zero_le _)]
    rfl
  · rw [register_of_room (s := s.resetBlock.withPort .host c) hroom]
    exact ⟨rfl, rfl⟩

/-! ### The step after a successful end (R286) -/

theorem startScan_phase_ne_waitCb {s : State} (h : s.phase ≠ .waitCb) : s.startScan.phase ≠ .waitCb := by
  rcases startScan_cases s with ⟨-, heq⟩ | ⟨-, heq⟩ <;> rw [heq]
  · exact h
  · nofun

/-- Settles O35: HOST has no word left, and ENGINE and CB are not enabled at rest; TICK's SCANTICK, reset and a turn
that passes are what is left. -/
theorem endedRunDoesNotFault : Obligations.EndedRunDoesNotFault := by
  intro s t ⟨hhost, hidle, hfaulted⟩ hstep
  have hwait : s.phase ≠ .waitCb := by simp [hidle]
  have hengine : s.engineEnabled = false := engineEnabled_eq_false (.inl (by simp [hidle]))
  have hcb : s.cbEnabled = false := cbEnabled_eq_false (.inl hwait)
  rcases step_next_cases s t hstep with rfl | ⟨-, rfl⟩ | ⟨c, rest, -, -, hprog, -⟩ | ⟨-, hen, htick⟩ |
    ⟨w, rest, -, hen, -, -⟩ | ⟨r, -, hen, -, -⟩ | ⟨-, hen, -, -⟩
  · exact ⟨hfaulted, hwait⟩
  · exact ⟨rfl, nofun⟩
  · simp [hhost] at hprog
  · cases htick.symm.trans (exec_scantick rfl hen)
    exact ⟨(startScan_sameSticky _).faulted.trans hfaulted, startScan_phase_ne_waitCb hwait⟩
  · simp [hcb] at hen
  · simp [hengine] at hen
  · simp [hengine] at hen

end Sys2Proof.Machine
